-- ==== Sys2Proof/Word.lean ====
section
/-!
DEFINITION. The word types of the machine (00_scope.md rules R5 and R8): every value is an unsigned
integer of a stated width.
-/

namespace Sys2Proof

/-- An 8-bit value: a general register, a byte of memory, `DT`, `ST`, `SP`, the immediate `kk` (R8). -/
abbrev Byte := BitVec 8

/-- A 16-bit value: `PC`, `I`, a stack entry, an opcode (R8). -/
abbrev Word := BitVec 16

/-- The 12-bit address field `nnn` (R8). -/
abbrev Addr := BitVec 12

/-- A 4-bit value: the sprite height `n` (R8). -/
abbrev Nibble := BitVec 4

/-- A register index, 0 to 15, the 4-bit fields `x` and `y` (R8, R20). -/
abbrev Reg := BitVec 4

/-- A key index, 0x0 to 0xF (R8, R32). -/
abbrev Key := BitVec 4

end Sys2Proof
end

