-- ==== Sys2Proof/Syntax.lean ====
section
/-!
DEFINITION. The instructions: one constructor per row of spec/opcode_table.json, in the order of
30_encoding.md rule R80, and the decoder's result type with its explicit 'unsupported' variant (R74).
-/

namespace Sys2Proof

/-- The 35 instructions (30_encoding.md rule R80). Operands are the fields the row names (R73). -/
inductive Instr where
  /-- `0NNN`, `SYS nnn` (R122). -/
  | sys (nnn : Addr)
  /-- `00E0`, `CLS` (R170). -/
  | cls
  /-- `00EE`, `RET` (R123). -/
  | ret
  /-- `1NNN`, `JP nnn` (R125). -/
  | jp (nnn : Addr)
  /-- `2NNN`, `CALL nnn` (R124). -/
  | call (nnn : Addr)
  /-- `3XKK`, `SE Vx, kk` (R127). -/
  | seImm (x : Reg) (kk : Byte)
  /-- `4XKK`, `SNE Vx, kk` (R128). -/
  | sneImm (x : Reg) (kk : Byte)
  /-- `5XY0`, `SE Vx, Vy` (R129). -/
  | seReg (x y : Reg)
  /-- `6XKK`, `LD Vx, kk` (R141). -/
  | ldImm (x : Reg) (kk : Byte)
  /-- `7XKK`, `ADD Vx, kk` (R142). -/
  | addImm (x : Reg) (kk : Byte)
  /-- `8XY0`, `LD Vx, Vy` (R143). -/
  | ldReg (x y : Reg)
  /-- `8XY1`, `OR Vx, Vy` (R144). -/
  | orReg (x y : Reg)
  /-- `8XY2`, `AND Vx, Vy` (R145). -/
  | andReg (x y : Reg)
  /-- `8XY3`, `XOR Vx, Vy` (R146). -/
  | xorReg (x y : Reg)
  /-- `8XY4`, `ADD Vx, Vy` (R147). -/
  | addReg (x y : Reg)
  /-- `8XY5`, `SUB Vx, Vy` (R148). -/
  | sub (x y : Reg)
  /-- `8XY6`, `SHR Vx` with the optional `Vy` (R149). -/
  | shr (x y : Reg)
  /-- `8XY7`, `SUBN Vx, Vy` (R150). -/
  | subn (x y : Reg)
  /-- `8XYE`, `SHL Vx` with the optional `Vy` (R151). -/
  | shl (x y : Reg)
  /-- `9XY0`, `SNE Vx, Vy` (R130). -/
  | sneReg (x y : Reg)
  /-- `ANNN`, `LD I, nnn` (R200). -/
  | ldI (nnn : Addr)
  /-- `BNNN`, `JP V0, nnn` (R126). -/
  | jpV0 (nnn : Addr)
  /-- `CXKK`, `RND Vx, kk` (R152). -/
  | rnd (x : Reg) (kk : Byte)
  /-- `DXYN`, `DRW Vx, Vy, n` (R171). -/
  | drw (x y : Reg) (n : Nibble)
  /-- `EX9E`, `SKP Vx` (R182). -/
  | skp (x : Reg)
  /-- `EXA1`, `SKNP Vx` (R183). -/
  | sknp (x : Reg)
  /-- `FX07`, `LD Vx, DT` (R184). -/
  | ldVxDt (x : Reg)
  /-- `FX0A`, `LD Vx, K` (R185). -/
  | ldVxK (x : Reg)
  /-- `FX15`, `LD DT, Vx` (R186). -/
  | ldDtVx (x : Reg)
  /-- `FX18`, `LD ST, Vx` (R187). -/
  | ldStVx (x : Reg)
  /-- `FX1E`, `ADD I, Vx` (R201). -/
  | addI (x : Reg)
  /-- `FX29`, `LD F, Vx` (R202). -/
  | ldF (x : Reg)
  /-- `FX33`, `LD B, Vx` (R204). -/
  | ldB (x : Reg)
  /-- `FX55`, `LD [I], Vx` (R205). -/
  | ldMemVx (x : Reg)
  /-- `FX65`, `LD Vx, [I]` (R206). -/
  | ldVxMem (x : Reg)
deriving DecidableEq, Repr

/-- The 36 results of the decoder (R74): an instruction, or 'unsupported' carrying the word (R86). -/
inductive Decoded where
  /-- The word is this instruction. -/
  | instr (i : Instr)
  /-- The word matches no pattern (R86). -/
  | unsupported (op : Word)
deriving DecidableEq, Repr

end Sys2Proof
end

