-- ==== Sys2Proof/Decode.lean ====
section
/-!
DEFINITION. The decoder and the encoder (30_encoding.md): fields of the opcode (R71), the two-level
total decoder (R74 to R84), the opcode map as mask and match (R80), and the encoder written from the
same formats (R73).
-/

namespace Sys2Proof

/-! ### Fields of the opcode (R71) -/

/-- `op[15:12]`, the family. -/
def opFamily (op : Word) : BitVec 4 := op.extractLsb' 12 4

/-- `op[11:8]`, the first register index. -/
def opX (op : Word) : Reg := op.extractLsb' 8 4

/-- `op[7:4]`, the second register index. -/
def opY (op : Word) : Reg := op.extractLsb' 4 4

/-- `op[3:0]`, the sprite height or a selector. -/
def opN (op : Word) : Nibble := op.extractLsb' 0 4

/-- `op[7:0]`, the immediate or a selector. -/
def opKk (op : Word) : Byte := op.extractLsb' 0 8

/-- `op[11:0]`, the address field. -/
def opNnn (op : Word) : Addr := op.extractLsb' 0 12

/-! ### The decoder (R84) -/

/-- Family 0: two full-word matches before `SYS` (R76). -/
def decodeFamily0 (op : Word) : Decoded :=
  if op = 0x00E0#16 then .instr .cls
  else if op = 0x00EE#16 then .instr .ret
  else .instr (.sys (opNnn op))

/-- Family 5: only low nibble 0 is an instruction (R77). -/
def decodeFamily5 (op : Word) : Decoded :=
  if opN op = 0x0#4 then .instr (.seReg (opX op) (opY op)) else .unsupported op

/-- Family 8, by the low nibble (R78). -/
def decodeFamily8 (op : Word) : Decoded :=
  if opN op = 0x0#4 then .instr (.ldReg (opX op) (opY op))
  else if opN op = 0x1#4 then .instr (.orReg (opX op) (opY op))
  else if opN op = 0x2#4 then .instr (.andReg (opX op) (opY op))
  else if opN op = 0x3#4 then .instr (.xorReg (opX op) (opY op))
  else if opN op = 0x4#4 then .instr (.addReg (opX op) (opY op))
  else if opN op = 0x5#4 then .instr (.sub (opX op) (opY op))
  else if opN op = 0x6#4 then .instr (.shr (opX op) (opY op))
  else if opN op = 0x7#4 then .instr (.subn (opX op) (opY op))
  else if opN op = 0xE#4 then .instr (.shl (opX op) (opY op))
  else .unsupported op

/-- Family 9: only low nibble 0 is an instruction (R79). -/
def decodeFamily9 (op : Word) : Decoded :=
  if opN op = 0x0#4 then .instr (.sneReg (opX op) (opY op)) else .unsupported op

/-- Family E, by the low byte (R81). -/
def decodeFamilyE (op : Word) : Decoded :=
  if opKk op = 0x9E#8 then .instr (.skp (opX op))
  else if opKk op = 0xA1#8 then .instr (.sknp (opX op))
  else .unsupported op

/-- Family F, by the low byte (R82). -/
def decodeFamilyF (op : Word) : Decoded :=
  if opKk op = 0x07#8 then .instr (.ldVxDt (opX op))
  else if opKk op = 0x0A#8 then .instr (.ldVxK (opX op))
  else if opKk op = 0x15#8 then .instr (.ldDtVx (opX op))
  else if opKk op = 0x18#8 then .instr (.ldStVx (opX op))
  else if opKk op = 0x1E#8 then .instr (.addI (opX op))
  else if opKk op = 0x29#8 then .instr (.ldF (opX op))
  else if opKk op = 0x33#8 then .instr (.ldB (opX op))
  else if opKk op = 0x55#8 then .instr (.ldMemVx (opX op))
  else if opKk op = 0x65#8 then .instr (.ldVxMem (opX op))
  else .unsupported op

/-- The decoder: a total function of the word alone (R74, R84, R87). -/
def decode (op : Word) : Decoded :=
  if opFamily op = 0x0#4 then decodeFamily0 op
  else if opFamily op = 0x1#4 then .instr (.jp (opNnn op))
  else if opFamily op = 0x2#4 then .instr (.call (opNnn op))
  else if opFamily op = 0x3#4 then .instr (.seImm (opX op) (opKk op))
  else if opFamily op = 0x4#4 then .instr (.sneImm (opX op) (opKk op))
  else if opFamily op = 0x5#4 then decodeFamily5 op
  else if opFamily op = 0x6#4 then .instr (.ldImm (opX op) (opKk op))
  else if opFamily op = 0x7#4 then .instr (.addImm (opX op) (opKk op))
  else if opFamily op = 0x8#4 then decodeFamily8 op
  else if opFamily op = 0x9#4 then decodeFamily9 op
  else if opFamily op = 0xA#4 then .instr (.ldI (opNnn op))
  else if opFamily op = 0xB#4 then .instr (.jpV0 (opNnn op))
  else if opFamily op = 0xC#4 then .instr (.rnd (opX op) (opKk op))
  else if opFamily op = 0xD#4 then .instr (.drw (opX op) (opY op) (opN op))
  else if opFamily op = 0xE#4 then decodeFamilyE op
  else decodeFamilyF op

/-! ### Bytes (20_memory.md rule R53) -/

/-- The opcode of two fetched bytes: the byte at the lower address is the high byte. -/
def opcodeOfBytes (first second : Byte) : Word := first ++ second

/-- The two bytes of an opcode as memory holds them, the lower address first. -/
def bytesOfOpcode (op : Word) : List Byte := [op.extractLsb' 8 8, op.extractLsb' 0 8]

/-- Decode the two bytes of an instruction: total on any bytes. -/
def decodeBytes (first second : Byte) : Decoded := decode (opcodeOfBytes first second)

/-! ### The encoder (R73, R80) -/

/-- The word of an instruction. -/
def encode : Instr → Word
  | .sys nnn => 0x0#4 ++ nnn
  | .cls => 0x00E0#16
  | .ret => 0x00EE#16
  | .jp nnn => 0x1#4 ++ nnn
  | .call nnn => 0x2#4 ++ nnn
  | .seImm x kk => 0x3#4 ++ x ++ kk
  | .sneImm x kk => 0x4#4 ++ x ++ kk
  | .seReg x y => 0x5#4 ++ x ++ y ++ 0x0#4
  | .ldImm x kk => 0x6#4 ++ x ++ kk
  | .addImm x kk => 0x7#4 ++ x ++ kk
  | .ldReg x y => 0x8#4 ++ x ++ y ++ 0x0#4
  | .orReg x y => 0x8#4 ++ x ++ y ++ 0x1#4
  | .andReg x y => 0x8#4 ++ x ++ y ++ 0x2#4
  | .xorReg x y => 0x8#4 ++ x ++ y ++ 0x3#4
  | .addReg x y => 0x8#4 ++ x ++ y ++ 0x4#4
  | .sub x y => 0x8#4 ++ x ++ y ++ 0x5#4
  | .shr x y => 0x8#4 ++ x ++ y ++ 0x6#4
  | .subn x y => 0x8#4 ++ x ++ y ++ 0x7#4
  | .shl x y => 0x8#4 ++ x ++ y ++ 0xE#4
  | .sneReg x y => 0x9#4 ++ x ++ y ++ 0x0#4
  | .ldI nnn => 0xA#4 ++ nnn
  | .jpV0 nnn => 0xB#4 ++ nnn
  | .rnd x kk => 0xC#4 ++ x ++ kk
  | .drw x y n => 0xD#4 ++ x ++ y ++ n
  | .skp x => 0xE#4 ++ x ++ 0x9E#8
  | .sknp x => 0xE#4 ++ x ++ 0xA1#8
  | .ldVxDt x => 0xF#4 ++ x ++ 0x07#8
  | .ldVxK x => 0xF#4 ++ x ++ 0x0A#8
  | .ldDtVx x => 0xF#4 ++ x ++ 0x15#8
  | .ldStVx x => 0xF#4 ++ x ++ 0x18#8
  | .addI x => 0xF#4 ++ x ++ 0x1E#8
  | .ldF x => 0xF#4 ++ x ++ 0x29#8
  | .ldB x => 0xF#4 ++ x ++ 0x33#8
  | .ldMemVx x => 0xF#4 ++ x ++ 0x55#8
  | .ldVxMem x => 0xF#4 ++ x ++ 0x65#8

/-! ### The opcode map as numbers (R80) -/

/-- The `mask` column of R80. -/
def opcodeMask : Instr → Word
  | .sys _ => 0xF000#16
  | .cls => 0xFFFF#16
  | .ret => 0xFFFF#16
  | .jp _ => 0xF000#16
  | .call _ => 0xF000#16
  | .seImm _ _ => 0xF000#16
  | .sneImm _ _ => 0xF000#16
  | .seReg _ _ => 0xF00F#16
  | .ldImm _ _ => 0xF000#16
  | .addImm _ _ => 0xF000#16
  | .ldReg _ _ => 0xF00F#16
  | .orReg _ _ => 0xF00F#16
  | .andReg _ _ => 0xF00F#16
  | .xorReg _ _ => 0xF00F#16
  | .addReg _ _ => 0xF00F#16
  | .sub _ _ => 0xF00F#16
  | .shr _ _ => 0xF00F#16
  | .subn _ _ => 0xF00F#16
  | .shl _ _ => 0xF00F#16
  | .sneReg _ _ => 0xF00F#16
  | .ldI _ => 0xF000#16
  | .jpV0 _ => 0xF000#16
  | .rnd _ _ => 0xF000#16
  | .drw _ _ _ => 0xF000#16
  | .skp _ => 0xF0FF#16
  | .sknp _ => 0xF0FF#16
  | .ldVxDt _ => 0xF0FF#16
  | .ldVxK _ => 0xF0FF#16
  | .ldDtVx _ => 0xF0FF#16
  | .ldStVx _ => 0xF0FF#16
  | .addI _ => 0xF0FF#16
  | .ldF _ => 0xF0FF#16
  | .ldB _ => 0xF0FF#16
  | .ldMemVx _ => 0xF0FF#16
  | .ldVxMem _ => 0xF0FF#16

/-- The `match` column of R80. -/
def opcodeMatch : Instr → Word
  | .sys _ => 0x0000#16
  | .cls => 0x00E0#16
  | .ret => 0x00EE#16
  | .jp _ => 0x1000#16
  | .call _ => 0x2000#16
  | .seImm _ _ => 0x3000#16
  | .sneImm _ _ => 0x4000#16
  | .seReg _ _ => 0x5000#16
  | .ldImm _ _ => 0x6000#16
  | .addImm _ _ => 0x7000#16
  | .ldReg _ _ => 0x8000#16
  | .orReg _ _ => 0x8001#16
  | .andReg _ _ => 0x8002#16
  | .xorReg _ _ => 0x8003#16
  | .addReg _ _ => 0x8004#16
  | .sub _ _ => 0x8005#16
  | .shr _ _ => 0x8006#16
  | .subn _ _ => 0x8007#16
  | .shl _ _ => 0x800E#16
  | .sneReg _ _ => 0x9000#16
  | .ldI _ => 0xA000#16
  | .jpV0 _ => 0xB000#16
  | .rnd _ _ => 0xC000#16
  | .drw _ _ _ => 0xD000#16
  | .skp _ => 0xE09E#16
  | .sknp _ => 0xE0A1#16
  | .ldVxDt _ => 0xF007#16
  | .ldVxK _ => 0xF00A#16
  | .ldDtVx _ => 0xF015#16
  | .ldStVx _ => 0xF018#16
  | .addI _ => 0xF01E#16
  | .ldF _ => 0xF029#16
  | .ldB _ => 0xF033#16
  | .ldMemVx _ => 0xF055#16
  | .ldVxMem _ => 0xF065#16

/-! ### The host's view of the decoder -/

/-- What the decoder reads from an instruction whose bits are `w`, numbered as the opcode table
numbers them; bits from `nbits` up are 0. The word is laid out as memory holds it, high byte first,
and decoded from those bytes. -/
def decodeTableWord (nbits w : Nat) : Option Instr :=
  match bytesOfOpcode (BitVec.ofNat 16 (w % 2 ^ nbits)) with
  | [first, second] =>
    match decodeBytes first second with
    | .instr i => some i
    | .unsupported _ => none
  | _ => none

end Sys2Proof
end

