-- ==== Sys2Proof/Config.lean ====
section
/-!
DEFINITION. The named parameters of 00_scope.md rule R6 as types, and the free values: what the spec
leaves open and no proof may know.
-/

namespace Sys2Proof

/-- `SHIFT_SOURCE`: the source register of `8XY6` and `8XYE` (R149, decision D4). -/
inductive ShiftSource where
  | vx
  | vy
deriving DecidableEq, Repr

/-- `ALU_READ_MODE`: how the result step of a flag instruction reads its operands (R140, D5). -/
inductive AluReadMode where
  /-- After the flag has been written to `VF`. -/
  | sequential
  /-- As they were before the instruction. -/
  | snapshot
deriving DecidableEq, Repr

/-- `SKP_KEY_SOURCE`: the key state `EX9E` and `EXA1` read (R182, D6). -/
inductive SkpKeySource where
  | observedKey
  | keyDown
deriving DecidableEq, Repr

/-- `ERROR_POLICY`: what the driver does on an error that is not a stack error (R224, R225, D13). -/
inductive ErrorPolicy where
  | halt
  | skip
deriving DecidableEq, Repr

/-- `GLYPH_POLICY`: `FX29` with `V[x] > 15` (R202, D16). -/
inductive GlyphPolicy where
  | fault
  | mask
  | multiply
deriving DecidableEq, Repr

/-- `RESET_REG_POLICY`: the registers the source gives no construction value (R38, D19). -/
inductive ResetRegPolicy where
  | zero
  | unspecified
deriving DecidableEq, Repr

/-- The parameters an instruction or the driver reads while the machine runs (R6). They are a field
of `State` that no step changes, so a statement over every state holds under every value of them.
`RESET_REG_POLICY` and `FONTSET` act at construction only and are arguments of `State.construct`. -/
structure Params where
  shiftSource : ShiftSource
  aluReadMode : AluReadMode
  skpKeySource : SkpKeySource
  /-- `TIMER_TICK_IN_CYCLE` (R107, D9). -/
  timerTickInCycle : Bool
  errorPolicy : ErrorPolicy
  glyphPolicy : GlyphPolicy
deriving DecidableEq, Repr

/-- `FONTSET`: any 80-byte table (R6, R37). -/
abbrev Fontset := Vector Byte 80

/-- The free draws of a construction under `RESET_REG_POLICY = unspecified` (R38): the values of
`V0` to `VF`, `I` and the stack entries, which a model must not assume. -/
structure ResetDraws where
  v : Vector Byte 16
  i : Word
  stack : Vector Word 16
deriving DecidableEq, Repr

/-- FREE VALUE (42_alu.md rule R152, decision D23): the random byte of the `n`-th draw. It has no
body, so no proof can know a value of it (log entry 3). -/
opaque Config.randomByte : Nat → Byte

end Sys2Proof
end

