-- ==== Sys2Proof/Machine/ResetValues.lean ====
section
/-!
DEFINITION. The values the spec decides for construction: the parameters of 00_scope.md rule R6, the
fontset of 10_state.md rule R37 and the registers of R38.
-/

namespace Sys2Proof.Machine

/-- The decided values of the parameters (R6, decisions D4 to D6, D9, D13, D16). -/
def decidedParams : Params where
  shiftSource := .vx
  aluReadMode := .sequential
  skpKeySource := .observedKey
  timerTickInCycle := true
  errorPolicy := .halt
  glyphPolicy := .fault

/-- The glyphs of the digits 0 to 7, five rows each (R37). -/
def glyphsLow : List (List Byte) :=
  [[0xF0, 0x90, 0x90, 0x90, 0xF0],
   [0x20, 0x60, 0x20, 0x20, 0x70],
   [0xF0, 0x10, 0xF0, 0x80, 0xF0],
   [0xF0, 0x10, 0xF0, 0x10, 0xF0],
   [0x90, 0x90, 0xF0, 0x10, 0x10],
   [0xF0, 0x80, 0xF0, 0x10, 0xF0],
   [0xF0, 0x80, 0xF0, 0x90, 0xF0],
   [0xF0, 0x10, 0x20, 0x40, 0x40]]

/-- The glyphs of the digits 8 to F, five rows each (R37). -/
def glyphsHigh : List (List Byte) :=
  [[0xF0, 0x90, 0xF0, 0x90, 0xF0],
   [0xF0, 0x90, 0xF0, 0x10, 0xF0],
   [0xF0, 0x90, 0xF0, 0x90, 0x90],
   [0xE0, 0x90, 0xE0, 0x90, 0xE0],
   [0xF0, 0x80, 0x80, 0x80, 0xF0],
   [0xE0, 0x90, 0x90, 0x90, 0xE0],
   [0xF0, 0x80, 0xF0, 0x80, 0xF0],
   [0xF0, 0x80, 0xF0, 0x80, 0x80]]

/-- The 80 fontset bytes in address order: glyph `d` occupies bytes `5*d` to `5*d + 4` (R37). -/
def fontsetBytes : List Byte := (glyphsLow ++ glyphsHigh).flatten

/-- The decided value of `FONTSET` (R6, D22). -/
def decidedFontset : Fontset := ⟨fontsetBytes.toArray, by decide⟩

/-- Programs load, and the program counter starts, at 0x200 (R5, R38, R58). -/
def programStart : Nat := 0x200

/-- `PC` after construction (R38). -/
def resetPc : Word := BitVec.ofNat 16 programStart

/-- `V0` to `VF` after construction under `RESET_REG_POLICY = zero` (R38, D19). -/
def resetV : Vector Byte 16 := Vector.replicate 16 0x00

/-- `I` after construction under `RESET_REG_POLICY = zero` (R38, D19). -/
def resetI : Word := 0x0000

/-- The stack entries after construction under `RESET_REG_POLICY = zero` (R38, D19). -/
def resetStack : Vector Word 16 := Vector.replicate 16 0x0000

end Sys2Proof.Machine
end

