-- ==== Sys2Proof/Machine/Memory.lean ====
section
/-!
DEFINITION. Memory as plain data (20_memory.md): a list of (address, byte) pairs in one canonical
form, the primitives `MemRead` and `MemWrite` of rule R51 over it, and the multi-byte store built
from them.
-/

namespace Sys2Proof.Machine

/-- Memory has 4096 bytes, addresses 0x000 to 0xFFF (R30, R50). -/
def memorySize : Nat := 4096

/-- What an address that the list does not name reads as: the construction contents, the decided
fontset at 0x000 to 0x04F and 0x00 elsewhere (10_state.md rule R38, 70_reset_and_hazards.md R250). -/
def Memory.unlisted (a : Nat) : Byte := fontsetBytes.getD a 0x00

/-- The byte the list names for an address, if any. -/
def Memory.lookup : List Host.Cell → Nat → Option Byte
  | [], _ => none
  | (a, b) :: m, k => if a = k then some b else Memory.lookup m k

/-- `MemRead(a, 1)` (R51). The rules call it only after the range check of R52, so `a <= 0xFFF`. -/
def Memory.read (m : List Host.Cell) (a : Nat) : Byte :=
  (Memory.lookup m a).getD (Memory.unlisted a)

/-- Put a byte at an address, at its place in the rising order. -/
def Memory.insert : List Host.Cell → Nat → Byte → List Host.Cell
  | [], k, v => [(k, v)]
  | (a, b) :: m, k, v =>
    if k < a then (k, v) :: (a, b) :: m
    else if k = a then (k, v) :: m
    else (a, b) :: Memory.insert m k v

/-- Take an address off the list, so that it reads as unlisted again. -/
def Memory.erase : List Host.Cell → Nat → List Host.Cell
  | [], _ => []
  | (a, b) :: m, k => if a = k then Memory.erase m k else (a, b) :: Memory.erase m k

/-- `MemWrite(a, 1, v)` (R51). It changes only the byte at `a` (R57) and keeps the canonical form. No
byte exists above 0xFFF, so a write there, which the range check of R52 rules out, changes nothing. -/
def Memory.write (m : List Host.Cell) (a : Nat) (v : Byte) : List Host.Cell :=
  if a < memorySize then
    if v = Memory.unlisted a then Memory.erase m a else Memory.insert m a v
  else m

/-- Store bytes at consecutive addresses from `a`, one access each, in rising order (R51, R60). -/
def Memory.store : List Host.Cell → Nat → List Byte → List Host.Cell
  | m, _, [] => m
  | m, a, b :: bs => Memory.store (Memory.write m a b) (a + 1) bs

/-- The canonical form, from a lower bound on: addresses strictly rising and inside memory, and no
entry equal to what its address reads as unlisted. -/
def Memory.wfFrom : Nat → List Host.Cell → Bool
  | _, [] => true
  | lo, (a, b) :: m =>
    decide (lo ≤ a) && decide (a < memorySize) && (b != Memory.unlisted a) && Memory.wfFrom (a + 1) m

/-- The canonical form of memory, so that equal memories are equal lists. -/
def Memory.wf (m : List Host.Cell) : Bool := Memory.wfFrom 0 m

end Sys2Proof.Machine
end

