-- ==== Sys2Proof/Machine/State.lean ====
section
/-!
DEFINITION. The state of the machine as plain data (10_state.md rules R20 to R36), the ways a step can
stop, and the state after construction (70_reset_and_hazards.md rule R250).
-/

namespace Sys2Proof.Machine

/-- The display buffer: 32 rows of 64 pixels, `true` = ON (R31). Row `r`, column `c` is `d[r][c]`. -/
abbrev Display := Vector (Vector Bool 64) 32

/-- The errors of 60_exceptions.md rule R220, each with the information it records. -/
inductive Error where
  /-- Code 1: the word matches no pattern (R226). -/
  | unsupported (op : Word)
  /-- Code 2: `2NNN` with 16 live entries (R221). -/
  | stackOverflow
  /-- Code 3: `00EE` with an empty stack (R222). -/
  | stackUnderflow
  /-- Code 4: an access of `count` bytes at `a` reaches past 0xFFF (R229). -/
  | memOutOfBounds (a : Word) (count : Nat)
  /-- Code 5: `0NNN` was executed (R227). -/
  | sysNotExecutable (nnn : Addr)
  /-- Code 6: `FX29` with `V[x] = d > 15` under `GLYPH_POLICY = fault` (R228). -/
  | glyphOutOfRange (d : Byte)
  /-- Code 7: the ROM load port was given `len > 3584` bytes (R230). -/
  | romTooLarge (len : Nat)
deriving DecidableEq, Repr

/-- The execution status (R35). -/
inductive Run where
  /-- Cycles execute. -/
  | running
  /-- The error `e` stopped the program; final. -/
  | halted (e : Error)
  /-- The fetch address ran off the end of memory; final and not an error. -/
  | terminated
deriving DecidableEq, Repr

/-- The machine state: "a single explicitly-owned aggregate" (10_state.md). -/
structure State where
  /-- Memory (R30, R50), in the canonical form `Memory.wf`. -/
  mem : List Host.Cell
  /-- `V0` to `VF` (R20); register 15 is also the flag (R22). -/
  v : Vector Byte 16
  /-- The index register `I` (R24). -/
  i : Word
  /-- The program counter `PC` (R25). -/
  pc : Word
  /-- The 16 entries of the return stack (R26). -/
  stack : Vector Word 16
  /-- The stack pointer `SP`, the number of live entries, legal values 0 to 16 (R27). -/
  sp : Byte
  /-- The delay timer `DT` (R28). -/
  dt : Byte
  /-- The sound timer `ST` (R29). -/
  st : Byte
  /-- The display buffer (R31). -/
  display : Display
  /-- `key_down[k]` for the 16 keys (R32). -/
  keyDown : Vector Bool 16
  /-- `observed_key` (R33). -/
  observedKey : Option Key
  /-- `wait`: the register an `FX0A` awaits a key for (R34). -/
  wait : Option Reg
  /-- `run` (R35). -/
  run : Run
  /-- The output `last_error` (R36, R225). -/
  lastError : Option Error
  /-- The output `sound_expired` (R36, R181). -/
  soundExpired : Bool
  /-- The parameters of 00_scope.md rule R6; no step changes them. -/
  params : Params
  /-- The MODEL's own: how many random bytes `CXKK` has drawn (log entry 3). -/
  draws : Nat
  /-- The MODEL's own: whether a cycle has begun, so that a later ROM load is refused (R252, log
  entry 4). -/
  cycled : Bool
deriving DecidableEq, Repr

/-- Why a step, or a port, stops. -/
inductive Fault where
  /-- Raised by `step`, and by the host tick, in `run = Halted(e)`: the core has no step there (R35,
  R100). Safe: the hardware has none either. -/
  | halted (e : Error)
  /-- Raised by `step`, and by the host tick, in `run = Terminated` (R35, R102). Safe: the hardware has
  no step there either. -/
  | terminated
  /-- Raised by the ROM load port: `RomTooLarge(len)`, code 7 (R230). Safe: the load fails in the
  hardware too, and memory is not changed. -/
  | romTooLarge (len : Nat)
  /-- Raised by `CALL` and `RET` in a state with `SP > 16`, which no rule ever leaves (R27). Safe: the
  model stops where the spec gives no stack entry. -/
  | stackPointerIllegal
deriving DecidableEq, Repr

/-- What the model has no meaning for. -/
inductive Refusal where
  /-- Raised by an arm of `exec` that has no meaning yet. Safe. No arm does. -/
  | notModelled (mnemonic : String)
  /-- Raised by the ROM load port after the first cycle has begun: not modelled, the model refuses it
  (R252, decision D20). Safe. -/
  | romLoadAfterFirstCycle
  /-- Raised by the host tick under `TIMER_TICK_IN_CYCLE = true`, where the model has no separate tick
  event (R107). Safe. -/
  | hostTickWithTickInCycle
deriving DecidableEq, Repr

/-- Construction (R250) under every value of the parameters: memory zeroed and the fontset installed,
`PC` at the program start, display cleared, timers zero, and the rest as R38 says. The registers that
R38 marks with decision D19 as depending on `RESET_REG_POLICY` are `draw`'s under `unspecified`. -/
def State.construct (p : Params) (policy : ResetRegPolicy) (font : Fontset) (draw : ResetDraws) :
    State where
  mem := Memory.store [] 0 font.toList
  v := match policy with
    | .zero => resetV
    | .unspecified => draw.v
  i := match policy with
    | .zero => resetI
    | .unspecified => draw.i
  pc := resetPc
  stack := match policy with
    | .zero => resetStack
    | .unspecified => draw.stack
  sp := 0
  dt := 0
  st := 0
  display := Vector.replicate 32 (Vector.replicate 64 false)
  keyDown := Vector.replicate 16 false
  observedKey := none
  wait := none
  run := .running
  lastError := none
  soundExpired := false
  params := p
  draws := 0
  cycled := false

/-- The machine right after construction under the decided parameters (R38, R250, R251), before any
ROM is loaded. The decided fontset is what unlisted memory reads as, so memory lists nothing. -/
def State.reset : State where
  mem := []
  v := resetV
  i := resetI
  pc := resetPc
  stack := resetStack
  sp := 0
  dt := 0
  st := 0
  display := Vector.replicate 32 (Vector.replicate 64 false)
  keyDown := Vector.replicate 16 false
  observedKey := none
  wait := none
  run := .running
  lastError := none
  soundExpired := false
  params := decidedParams
  draws := 0
  cycled := false

end Sys2Proof.Machine
end

