-- ==== Sys2Proof/Machine/Ops.lean ====
section
/-!
DEFINITION. The named operations every rule is written with: field updates, the pseudocode primitives
of 00_scope.md rule R9, the three executor outcomes (40_cycle_driver.md rules R104 and R105), taking
an error (60_exceptions.md rules R224 and R225), the range check (20_memory.md rule R52), the stack
(10_state.md rule R27) and the timer tick (44_keypad_timers.md rule R180).
-/

namespace Sys2Proof.Machine

/-- What executing an instruction, or a cycle, ends in. -/
abbrev Outcome := Host.Outcome State Fault Refusal

/-! ### Field updates -/

/-- Replace memory. -/
def State.setMem (s : State) (w : List Host.Cell) : State := { s with mem := w }

/-- Replace all general registers (R20). -/
def State.setV (s : State) (w : Vector Byte 16) : State := { s with v := w }

/-- `I <- w` (R24). -/
def State.setI (s : State) (w : Word) : State := { s with i := w }

/-- `PC <- w` (R25). -/
def State.setPc (s : State) (w : Word) : State := { s with pc := w }

/-- Replace the stack entries (R26). -/
def State.setStack (s : State) (w : Vector Word 16) : State := { s with stack := w }

/-- `SP <- w` (R27). -/
def State.setSp (s : State) (w : Byte) : State := { s with sp := w }

/-- `DT <- w` (R28). -/
def State.setDt (s : State) (w : Byte) : State := { s with dt := w }

/-- `ST <- w` (R29). -/
def State.setSt (s : State) (w : Byte) : State := { s with st := w }

/-- Replace the display buffer (R31). -/
def State.setDisplay (s : State) (w : Display) : State := { s with display := w }

/-- Replace the key-down states (R32). -/
def State.setKeyDown (s : State) (w : Vector Bool 16) : State := { s with keyDown := w }

/-- Set `observed_key` (R33). -/
def State.setObservedKey (s : State) (w : Option Key) : State := { s with observedKey := w }

/-- Set `wait` (R34). -/
def State.setWait (s : State) (w : Option Reg) : State := { s with wait := w }

/-- Set `run` (R35). -/
def State.setRun (s : State) (w : Run) : State := { s with run := w }

/-- Set `last_error` (R36). -/
def State.setLastError (s : State) (w : Option Error) : State := { s with lastError := w }

/-- Set `sound_expired` (R36). -/
def State.setSoundExpired (s : State) (w : Bool) : State := { s with soundExpired := w }

/-- Set the model's count of random draws. -/
def State.setDraws (s : State) (w : Nat) : State := { s with draws := w }

/-- Set the model's mark that a cycle has begun. -/
def State.setCycled (s : State) (w : Bool) : State := { s with cycled := w }

/-! ### Primitives (R8, R9) -/

/-- `zext_16(v)`. -/
def zext16 {n : Nat} (v : BitVec n) : Word := v.setWidth 16

/-- `zext_8(k)` of a key index. -/
def zext8 (k : Key) : Byte := k.setWidth 8

/-- `VF` is register 15 (R22). -/
def vf : Reg := 0xF#4

/-- `V[x]`: read general register `x`. -/
def State.getV (s : State) (x : Reg) : Byte := s.v[x.toNat]

/-- `V[x] <- b`: write general register `x`. -/
def State.putV (s : State) (x : Reg) (b : Byte) : State := s.setV (s.v.set x.toNat b)

/-- `MemRead(a, 1)` (R51). -/
def State.readByte (s : State) (a : Nat) : Byte := Memory.read s.mem a

/-- `MemWrite` of consecutive bytes from `a` on (R51). -/
def State.writeBytes (s : State) (a : Nat) (bs : List Byte) : State :=
  s.setMem (Memory.store s.mem a bs)

/-! ### Errors (60_exceptions.md) -/

/-- The spec's own numbering of the errors (R220, decision D14). -/
def Error.code : Error → Nat
  | .unsupported _ => 1
  | .stackOverflow => 2
  | .stackUnderflow => 3
  | .memOutOfBounds _ _ => 4
  | .sysNotExecutable _ => 5
  | .glyphOutOfRange _ => 6
  | .romTooLarge _ => 7

/-- The errors that halt under either policy: the two stack errors (R106, R220, R224). -/
def Error.alwaysHalts : Error → Bool
  | .stackOverflow => true
  | .stackUnderflow => true
  | .unsupported _ => false
  | .memOutOfBounds _ _ => false
  | .sysNotExecutable _ => false
  | .glyphOutOfRange _ => false
  | .romTooLarge _ => false

/-- Whether the driver halts on the error, by `ERROR_POLICY` (R224, R225). -/
def haltsOn (p : ErrorPolicy) (e : Error) : Bool :=
  match p with
  | .halt => true
  | .skip => e.alwaysHalts

/-- TAKING AN ERROR, the one operation that does it (R106, R224, R225, R232). `last_error` takes the
error; then either `run` becomes `Halted(e)` with `PC` kept at the instruction that raised, or `PC`
advances by 2 and the machine goes on. Nothing else changes, no state is saved and no handler is
entered; there is no return from an error (R233). -/
def handleError (e : Error) (s : State) : State :=
  if haltsOn s.params.errorPolicy e then (s.setLastError (some e)).setRun (.halted e)
  else (s.setLastError (some e)).setPc (s.pc + 2)

/-! ### Executor outcomes (R104, R105, R106) -/

/-- `Next`: the driver advances `PC` by 2 (R105). -/
def outNext (s : State) : Outcome := .next (s.setPc (s.pc + 2))

/-- `Jumped`: the driver leaves `PC` as the instruction set it (R105). -/
def outJumped (s : State) : Outcome := .next s

/-- `Error(e)`: the instruction changed nothing and the driver takes the error (R106, R223). -/
def raiseError (e : Error) (s : State) : Outcome := .next (handleError e s)

/-- A skip: `PC <- PC + 2` and then outcome `Next`, so a taken skip adds 4 in all (R121). -/
def outSkipIf (taken : Bool) (s : State) : Outcome :=
  if taken then outNext (s.setPc (s.pc + 2)) else outNext s

/-! ### Range check (R52) -/

/-- Whether the `count` bytes from `I` on reach past 0xFFF, computed as mathematical integers (R52,
R220). No bytes never do (R171). -/
def outOfRange (i : Word) (count : Nat) : Bool :=
  decide (count > 0) && decide (i.toNat + count - 1 > 0xFFF)

/-- Check the whole range `I` to `I + count - 1` before the access `k`, and raise `MemOutOfBounds`
with nothing changed where it leaves memory (R52, R223, R229). -/
def withRange (count : Nat) (s : State) (k : State → Outcome) : Outcome :=
  if outOfRange s.i count then raiseError (.memOutOfBounds s.i count) s else k s

/-! ### The stack (R26, R27) -/

/-- `SP` when the stack is full (R27). -/
def stackCapacity : Byte := 16

/-- Stop in a state with `SP > 16`, which no rule leaves (R27, log entry 5); else go on. -/
def withLegalSp (s : State) (k : State → Outcome) : Outcome :=
  if s.sp ≤ stackCapacity then k s else .fault .stackPointerIllegal

/-- A push writes `stack[SP]` and then increments `SP` (R27). -/
def push (w : Word) (s : State) : State :=
  (s.setStack (s.stack.setIfInBounds s.sp.toNat w)).setSp (s.sp + 1)

/-- The entry a pop reads, `stack[SP - 1]` (R27). -/
def popped (s : State) : Word := s.stack.getD (s.sp - 1).toNat 0

/-- A pop decrements `SP` and then reads; the entry keeps its value (R26, R27). -/
def pop (s : State) : State := s.setSp (s.sp - 1)

/-! ### The timer tick (R180) -/

/-- `DT` counts down while above zero. -/
def tickDelay (s : State) : State := if s.dt > 0 then s.setDt (s.dt - 1) else s

/-- `ST` counts down while above zero, and raises `sound_expired` when it reaches zero (R180, R181). -/
def tickSound (s : State) : State :=
  if s.st > 0 then
    if s.st - 1 = 0 then (s.setSt (s.st - 1)).setSoundExpired true else s.setSt (s.st - 1)
  else s

/-- One tick of both timers (R180). -/
def tick (s : State) : State := tickSound (tickDelay s)

end Sys2Proof.Machine
end

