-- ==== Sys2Proof/Machine/Operands.lean ====
section
/-!
DEFINITION. The operand forms of the instructions whose operand depends on a parameter or is computed:
shift source, operand reads after a flag write, key compare, glyph address, decimal digits, the
register block of dump and load, and sprite bits.
-/

namespace Sys2Proof.Machine

/-- The source register of a shift by `SHIFT_SOURCE` (42_alu.md rules R149 and R151). -/
def shiftSourceReg (s : State) (x y : Reg) : Reg :=
  match s.params.shiftSource with
  | .vx => x
  | .vy => y

/-- What the result step of a flag instruction reads from register `r`, by `ALU_READ_MODE`: from the
state the flag write left, or from the state before the instruction (R140). -/
def operandAfterFlag (before after : State) (r : Reg) : Byte :=
  match before.params.aluReadMode with
  | .sequential => after.getV r
  | .snapshot => before.getV r

/-- Whether the observed key is the value (R182). `none` is never pressed, and a value above 15 names
no key (R188). -/
def observedKeyIs (s : State) (b : Byte) : Bool :=
  match s.observedKey with
  | some k => zext8 k == b
  | none => false

/-- Whether the key-down state of the value's key is set; a value above 15 names no key, and no index
above 15 is read (R182, R188). -/
def keyIsDown (s : State) (b : Byte) : Bool :=
  if h : b.toNat < 16 then s.keyDown[b.toNat] else false

/-- `pressed` of the key-skip instructions, by `SKP_KEY_SOURCE` (R182). -/
def keyPressed (s : State) (x : Reg) : Bool :=
  match s.params.skpKeySource with
  | .observedKey => observedKeyIs s (s.getV x)
  | .keyDown => keyIsDown s (s.getV x)

/-- The glyph address of a value, `5 * d` (45_index_memory.md rule R202, 10_state.md rule R37). -/
def glyphBase (d : Byte) : Word := BitVec.ofNat 16 (5 * d.toNat)

/-- What `FX29` loads for the value `d`, or none where it raises: digits 0 to 15 have a glyph, and
`GLYPH_POLICY` decides the rest (R202). -/
def glyphAddress (p : GlyphPolicy) (d : Byte) : Option Word :=
  if d.toNat ≤ 15 then some (glyphBase d)
  else
    match p with
    | .fault => none
    | .mask => some (glyphBase (d &&& 0x0F))
    | .multiply => some (glyphBase d)

/-- The hundreds, tens and units digits of a value, in store order (R204). -/
def bcdDigits (b : Byte) : List Byte :=
  [BitVec.ofNat 8 (b.toNat / 100), BitVec.ofNat 8 (b.toNat / 10 % 10), BitVec.ofNat 8 (b.toNat % 10)]

/-- How many registers `FX55` and `FX65` move: `V0` to `V[x]` inclusive (R205, R206). -/
def blockCount (x : Reg) : Nat := x.toNat + 1

/-- The bytes `FX55` stores, `V0` to `V[x]` in order (R205). -/
def dumpBytes (s : State) (x : Reg) : List Byte := s.v.toList.take (blockCount x)

/-- The registers after `V[i] <- MemRead(a + i, 1)` for `i` from 0 to `count - 1`, in order (R206). -/
def loadBlock (s : State) (a : Nat) : Nat → Vector Byte 16 → Vector Byte 16
  | 0, v => v
  | n + 1, v => (loadBlock s a n v).setIfInBounds n (s.readByte (a + n))

/-- The sprite bit at column offset `c` of a row byte: bit 7 is the leftmost pixel (43_display.md rule
R173). -/
def spriteBit (row : Byte) (c : Nat) : Bool := row.getLsbD (7 - c)

end Sys2Proof.Machine
end

