-- ==== Sys2Proof/Machine/Flags.lean ====
section
/-!
DEFINITION. The flag computations (42_alu.md rules R147 to R151) and the two sequential steps of a flag
instruction (R23, R140): the flag from the values before the instruction goes to `VF`, and only then
the result is computed and written.
-/

namespace Sys2Proof.Machine

/-- A flag as a register value, 1 or 0. -/
def flagByte (b : Bool) : Byte := if b then 1 else 0

/-- Carry: 1 if `a + b > 255` (R147). -/
def carryFlag (a b : Byte) : Byte := flagByte (decide (a.toNat + b.toNat > 255))

/-- Not-borrow of `a - b`: 1 if `a >= b` (R148, 90_conflicts.md C8). -/
def notBorrowFlag (a b : Byte) : Byte := flagByte (decide (a.toNat ≥ b.toNat))

/-- The bit shifted out at the right, bit 0 (R149). -/
def shiftedOutRight (a : Byte) : Byte := a &&& 1

/-- The bit shifted out at the left, bit 7 (R151). -/
def shiftedOutLeft (a : Byte) : Byte := (a >>> 7) &&& 1

/-- The two steps of a flag instruction with destination `x` and operand registers `a` and `b` (R140):
write the flag of the old values to `VF`, then compute the result from the operands as
`ALU_READ_MODE` reads them and write it to `V[x]`. -/
def flagThenResult (x a b : Reg) (flag result : Byte → Byte → Byte) (s : State) : State :=
  let flagged := s.putV vf (flag (s.getV a) (s.getV b))
  flagged.putV x (result (operandAfterFlag s flagged a) (operandAfterFlag s flagged b))

end Sys2Proof.Machine
end

