-- ==== Sys2Proof/Machine/Alu.lean ====
section
/-!
DEFINITION. The register, arithmetic and logic instructions (42_alu.md rules R140 to R154). All
arithmetic is unsigned mod 256 (R153), and every instruction reports `Next`.
-/

namespace Sys2Proof.Machine

/-- `LD Vx, kk` (R141). -/
def execLdImm (x : Reg) (kk : Byte) (s : State) : Outcome := outNext (s.putV x kk)

/-- `ADD Vx, kk`: wraps and writes no flag (R142). -/
def execAddImm (x : Reg) (kk : Byte) (s : State) : Outcome := outNext (s.putV x (s.getV x + kk))

/-- `LD Vx, Vy` (R143). -/
def execLdReg (x y : Reg) (s : State) : Outcome := outNext (s.putV x (s.getV y))

/-- `OR Vx, Vy` (R144); `VF` is not reset. -/
def execOrReg (x y : Reg) (s : State) : Outcome := outNext (s.putV x (s.getV x ||| s.getV y))

/-- `AND Vx, Vy` (R145). -/
def execAndReg (x y : Reg) (s : State) : Outcome := outNext (s.putV x (s.getV x &&& s.getV y))

/-- `XOR Vx, Vy` (R146). -/
def execXorReg (x y : Reg) (s : State) : Outcome := outNext (s.putV x (s.getV x ^^^ s.getV y))

/-- `ADD Vx, Vy` with carry (R147). -/
def execAddReg (x y : Reg) (s : State) : Outcome :=
  outNext (flagThenResult x x y carryFlag (fun a b => a + b) s)

/-- `SUB Vx, Vy` with not-borrow (R148). -/
def execSub (x y : Reg) (s : State) : Outcome :=
  outNext (flagThenResult x x y notBorrowFlag (fun a b => a - b) s)

/-- `SHR Vx` of the shift source; a 0 enters at bit 7 (R149). -/
def execShr (x y : Reg) (s : State) : Outcome :=
  let src := shiftSourceReg s x y
  outNext (flagThenResult x src src (fun a _ => shiftedOutRight a) (fun a _ => a >>> 1) s)

/-- `SUBN Vx, Vy`, the reverse subtraction (R150). -/
def execSubn (x y : Reg) (s : State) : Outcome :=
  outNext (flagThenResult x x y (fun a b => notBorrowFlag b a) (fun a b => b - a) s)

/-- `SHL Vx` of the shift source; a 0 enters at bit 0 (R151). -/
def execShl (x y : Reg) (s : State) : Outcome :=
  let src := shiftSourceReg s x y
  outNext (flagThenResult x src src (fun a _ => shiftedOutLeft a) (fun a _ => a <<< 1) s)

/-- `RND Vx, kk`: the cycle's free random byte masked with `kk` (R152, D23, log entry 3). -/
def execRnd (x : Reg) (kk : Byte) (s : State) : Outcome :=
  outNext ((s.putV x (Config.randomByte s.draws &&& kk)).setDraws (s.draws + 1))

end Sys2Proof.Machine
end

