-- ==== Sys2Proof/Machine/ControlFlow.lean ====
section
/-!
DEFINITION. The control flow instructions (41_control_flow.md rules R120 to R132).
-/

namespace Sys2Proof.Machine

/-- `SYS nnn` always raises `SysNotExecutable(nnn)` (R122, R227). -/
def execSys (nnn : Addr) (s : State) : Outcome := raiseError (.sysNotExecutable nnn) s

/-- `RET` pops into `PC` and reports `Next`; an empty stack raises `StackUnderflow` (R123). -/
def execRet (s : State) : Outcome :=
  withLegalSp s fun s =>
    if s.sp = 0 then raiseError .stackUnderflow s else outNext ((pop s).setPc (popped s))

/-- `JP nnn` (R125). -/
def execJp (nnn : Addr) (s : State) : Outcome := outJumped (s.setPc (zext16 nnn))

/-- `CALL nnn` pushes its own address and jumps; a full stack raises `StackOverflow` (R124). -/
def execCall (nnn : Addr) (s : State) : Outcome :=
  withLegalSp s fun s =>
    if s.sp = stackCapacity then raiseError .stackOverflow s
    else outJumped ((push s.pc s).setPc (zext16 nnn))

/-- `SE Vx, kk` (R127). -/
def execSeImm (x : Reg) (kk : Byte) (s : State) : Outcome := outSkipIf (s.getV x == kk) s

/-- `SNE Vx, kk` (R128). -/
def execSneImm (x : Reg) (kk : Byte) (s : State) : Outcome := outSkipIf (s.getV x != kk) s

/-- `SE Vx, Vy` (R129). -/
def execSeReg (x y : Reg) (s : State) : Outcome := outSkipIf (s.getV x == s.getV y) s

/-- `SNE Vx, Vy` (R130). -/
def execSneReg (x y : Reg) (s : State) : Outcome := outSkipIf (s.getV x != s.getV y) s

/-- `JP V0, nnn`: the register is always `V0` and the target is not reduced (R126). -/
def execJpV0 (nnn : Addr) (s : State) : Outcome :=
  outJumped (s.setPc (zext16 nnn + zext16 (s.getV 0)))

end Sys2Proof.Machine
end

