-- ==== Sys2Proof/Machine/DisplayOps.lean ====
section
/-!
DEFINITION. The display instructions (43_display.md rules R170 to R174).
-/

namespace Sys2Proof.Machine

/-- The pixel at row `r`, column `c` (R31). -/
def Display.pixel (d : Display) (r : Fin 32) (c : Fin 64) : Bool := d[r][c]

/-- `display[r][c] <- display[r][c] XOR 1` (R171). -/
def Display.toggle (d : Display) (r : Fin 32) (c : Fin 64) : Display :=
  d.set r (d[r].set c (!d[r][c]))

/-- Every pixel OFF (R170). -/
def Display.blank : Display := Vector.replicate 32 (Vector.replicate 64 false)

/-- `CLS` (R170). -/
def execCls (s : State) : Outcome := outNext (s.setDisplay Display.blank)

/-- The display row a row offset lands on, `(cy + r) mod 32` (R171, R174). -/
def spriteRow (cy : Byte) (r : Nat) : Fin 32 := Fin.ofNat 32 (cy.toNat + r)

/-- The display column a column offset lands on, `(cx + c) mod 64` (R171, R174). -/
def spriteCol (cx : Byte) (c : Nat) : Fin 64 := Fin.ofNat 64 (cx.toNat + c)

/-- The body of the inner loop of R171 on the display and `hit`: a 1 bit toggles its pixel, and a pixel
that was ON sets `hit`. -/
def drawPixel (cx cy row : Byte) (r c : Nat) : Display × Bool → Display × Bool
  | (d, hit) =>
    if spriteBit row c then
      (d.toggle (spriteRow cy r) (spriteCol cx c), hit || d.pixel (spriteRow cy r) (spriteCol cx c))
    else (d, hit)

/-- The inner loop of R171 over the first `n` columns of a sprite row, in order. -/
def drawCols (cx cy row : Byte) (r : Nat) : Nat → Display × Bool → Display × Bool
  | 0, acc => acc
  | c + 1, acc => drawPixel cx cy row r c (drawCols cx cy row r c acc)

/-- The outer loop of R171 over the first `n` rows of the sprite at `base`, in order. -/
def drawRows (s : State) (cx cy : Byte) (base : Nat) : Nat → Display × Bool → Display × Bool
  | 0, acc => acc
  | r + 1, acc => drawCols cx cy (s.readByte (base + r)) r 8 (drawRows s cx cy base r acc)

/-- `DRW Vx, Vy, n` (R171): position and base are read before any write, the range is checked, the
sprite is drawn by XOR with wraparound, and `VF` takes the collision flag (R172). -/
def execDrw (x y : Reg) (n : Nibble) (s : State) : Outcome :=
  withRange n.toNat s fun s =>
    let drawn := drawRows s (s.getV x) (s.getV y) s.i.toNat n.toNat (s.display, false)
    outNext ((s.setDisplay drawn.1).putV vf (flagByte drawn.2))

end Sys2Proof.Machine
end

