-- ==== Sys2Proof/Machine/IndexMemory.lean ====
section
/-!
DEFINITION. The index register and memory instructions (45_index_memory.md rules R200 to R207).
-/

namespace Sys2Proof.Machine

/-- `LD I, nnn` (R200). -/
def execLdI (nnn : Addr) (s : State) : Outcome := outNext (s.setI (zext16 nnn))

/-- `ADD I, Vx`: mod 65536, no flag (R201, D18). -/
def execAddI (x : Reg) (s : State) : Outcome := outNext (s.setI (s.i + zext16 (s.getV x)))

/-- `LD F, Vx` (R202, R228). -/
def execLdF (x : Reg) (s : State) : Outcome :=
  match glyphAddress s.params.glyphPolicy (s.getV x) with
  | some a => outNext (s.setI a)
  | none => raiseError (.glyphOutOfRange (s.getV x)) s

/-- `LD B, Vx`: three decimal digits at `I`; `I` is not changed (R204). -/
def execLdB (x : Reg) (s : State) : Outcome :=
  withRange 3 s fun s => outNext (s.writeBytes s.i.toNat (bcdDigits (s.getV x)))

/-- `I` after a dump or load of `count` registers, `(a + x + 1) mod 65536` (R205, R206). -/
def advanceIndex (count : Nat) (s : State) : State := s.setI (s.i + BitVec.ofNat 16 count)

/-- `LD [I], Vx`: dump `V0` to `V[x]` (R205). -/
def execLdMemVx (x : Reg) (s : State) : Outcome :=
  withRange (blockCount x) s fun s =>
    outNext (advanceIndex (blockCount x) (s.writeBytes s.i.toNat (dumpBytes s x)))

/-- `LD Vx, [I]`: load `V0` to `V[x]` (R206). -/
def execLdVxMem (x : Reg) (s : State) : Outcome :=
  withRange (blockCount x) s fun s =>
    outNext (advanceIndex (blockCount x) (s.setV (loadBlock s s.i.toNat (blockCount x) s.v)))

end Sys2Proof.Machine
end

