-- ==== Sys2Proof/Machine/KeypadTimers.lean ====
section
/-!
DEFINITION. The timer and keypad instructions (44_keypad_timers.md rules R182 to R187).
-/

namespace Sys2Proof.Machine

/-- `SKP Vx` (R182). -/
def execSkp (x : Reg) (s : State) : Outcome := outSkipIf (keyPressed s x) s

/-- `SKNP Vx` (R183). -/
def execSknp (x : Reg) (s : State) : Outcome := outSkipIf (!keyPressed s x) s

/-- `LD Vx, DT` (R184). -/
def execLdVxDt (x : Reg) (s : State) : Outcome := outNext (s.putV x s.dt)

/-- `LD Vx, K` (R185): an observed key completes the read at once and is not consumed; with none the
machine awaits one, `PC` staying at this instruction. -/
def execLdVxK (x : Reg) (s : State) : Outcome :=
  match s.observedKey with
  | some k => outNext (s.putV x (zext8 k))
  | none => outJumped (s.setWait (some x))

/-- `LD DT, Vx` (R186). -/
def execLdDtVx (x : Reg) (s : State) : Outcome := outNext (s.setDt (s.getV x))

/-- `LD ST, Vx` (R187). -/
def execLdStVx (x : Reg) (s : State) : Outcome := outNext (s.setSt (s.getV x))

end Sys2Proof.Machine
end

