-- ==== Sys2Proof/Machine/Cycle.lean ====
section
/-!
DEFINITION. One cycle of the Cycle Driver (40_cycle_driver.md rules R100 to R108), with its checks in
the order of 60_exceptions.md rule R231.
-/

namespace Sys2Proof.Machine

/-- What every cycle does first: `sound_expired <- false`, then the tick when `TIMER_TICK_IN_CYCLE`
(R100, R107, R180). It also marks that a cycle has begun, for the ROM load port (R252). -/
def beginCycle (s : State) : State :=
  if s.params.timerTickInCycle then tick ((s.setCycled true).setSoundExpired false)
  else (s.setCycled true).setSoundExpired false

/-- A cycle while `wait = some(x)`: an observed key completes the `FX0A` at `PC`; with none nothing
else changes (R103). The key is not consumed. -/
def pollKey (x : Reg) (s : State) : State :=
  match s.observedKey with
  | some k => ((s.putV x (zext8 k)).setWait none).setPc (s.pc + 2)
  | none => s

/-- The fetch: the opcode of the bytes at `PC` and `PC + 1`, or none where it runs off the end of memory
(R53, R101, R102). -/
def fetchWord (s : State) : Option Word :=
  if s.pc.toNat + 1 > 0xFFF then none
  else some (opcodeOfBytes (s.readByte s.pc.toNat) (s.readByte (s.pc.toNat + 1)))

/-- Execute what was decoded; the unsupported result raises `Unsupported(op)` (R108, R226). -/
def execDecoded (d : Decoded) (s : State) : Outcome :=
  match d with
  | .instr i => exec i s
  | .unsupported op => raiseError (.unsupported op) s

/-- The cycle after the tick (R100): the key wait, else fetch, decode and execute. -/
def cycleBody (s : State) : Outcome :=
  match s.wait with
  | some x => .next (pollKey x s)
  | none =>
    match fetchWord s with
    | none => .next (s.setRun .terminated)
    | some op => execDecoded (decode op) s

/-- One cycle, defined only while `run = Running`; `Halted(e)` and `Terminated` have no step (R35,
R100). -/
def cycle (s : State) : Outcome :=
  match s.run with
  | .running => cycleBody (beginCycle s)
  | .halted e => .fault (.halted e)
  | .terminated => .fault .terminated

/-- The state with an opcode stored where the next cycle fetches, ready to fetch it: the two bytes at
`PC`, `run = Running` and no key awaited. Where `PC` leaves no room for them, nothing changes. -/
def placeOpcode (s : State) (op : Word) : State :=
  if s.pc.toNat + 1 > 0xFFF then s
  else ((s.writeBytes s.pc.toNat (bytesOfOpcode op)).setWait none).setRun .running

end Sys2Proof.Machine
end

