-- ==== Sys2Proof/Machine/Step.lean ====
section
/-!
DEFINITION. The step of the machine, one cycle of the driver (40_cycle_driver.md rule R100), and the
host's way to place one instruction for it.
-/

namespace Sys2Proof.Machine

/-- One step: one cycle (R100). -/
def step (s : State) : Host.Outcome State Fault Refusal := cycle s

/-- `s` with the instruction whose bits are `w`, numbered as the opcode table numbers them, stored where
`step` fetches next; bits from `nbits` up are 0 (log entry 6). -/
def State.withFetchWord (s : State) (nbits w : Nat) : State :=
  placeOpcode s (BitVec.ofNat 16 (w % 2 ^ nbits))

end Sys2Proof.Machine
end

