-- ==== Sys2Proof/Machine/Ports.lean ====
section
/-!
DEFINITION. The host-facing ports (60_exceptions.md rules R238 to R240, 40_cycle_driver.md rules R107
and R109, 70_reset_and_hazards.md rule R252): what the host may do between two cycles.
-/

namespace Sys2Proof.Machine

/-- `set_key(k, down)`: `key_down[k] <- down` (R238). -/
def setKey (k : Key) (down : Bool) (s : State) : State := s.setKeyDown (s.keyDown.set k.toNat down)

/-- `observe_key(k)`: `observed_key <- some(k)` (R238). -/
def observeKey (k : Key) (s : State) : State := s.setObservedKey (some k)

/-- `clear_observed()`: `observed_key <- none` (R238). -/
def clearObserved (s : State) : State := s.setObservedKey none

/-- The tick as a host event, which exists only under `TIMER_TICK_IN_CYCLE = false` (R107, R109). In a
final state the machine takes none (log entry 7). -/
def hostTick (s : State) : Outcome :=
  if s.params.timerTickInCycle then .refused .hostTickWithTickInCycle
  else
    match s.run with
    | .running => .next (tick s)
    | .halted e => .fault (.halted e)
    | .terminated => .fault .terminated

/-- How many bytes a ROM may have: `0x200 + len - 1 <= 0xFFF` (R230). -/
def romCapacity : Nat := memorySize - programStart

/-- The ROM load port (R252): after construction and before the first cycle, the bytes are copied to
0x200 on; too many raise `RomTooLarge` and change no memory (R230). -/
def loadRom (rom : List Byte) (s : State) : Outcome :=
  if s.cycled then .refused .romLoadAfterFirstCycle
  else if rom.length > romCapacity then .fault (.romTooLarge rom.length)
  else .next (s.writeBytes programStart rom)

/-- The output `sound_active`, a level (R36, R181). -/
def soundActive (s : State) : Bool := decide (s.st > 0)

/-- The display query: the 2048 pixels, row-major (R240). -/
def displayQuery (s : State) : List Bool := s.display.toList.flatMap Vector.toList

/-- What a diagnostics dump returns (R239). -/
structure Dump where
  memory : List Byte
  v : Vector Byte 16
  i : Word
  pc : Word
  sp : Byte
  stack : Vector Word 16
  dt : Byte
  st : Byte
  wait : Option Reg
  run : Run
  lastError : Option Error
deriving DecidableEq, Repr

/-- The diagnostics dump: the state as it stands between cycles; it changes nothing (R239). -/
def dump (s : State) : Dump where
  memory := (List.range memorySize).map s.readByte
  v := s.v
  i := s.i
  pc := s.pc
  sp := s.sp
  stack := s.stack
  dt := s.dt
  st := s.st
  wait := s.wait
  run := s.run
  lastError := s.lastError

end Sys2Proof.Machine
end

