-- ==== Sys2Proof/Safety.lean ====
section
/-!
DEFINITION. The terms claims use: what an instruction may write and what it leaves alone (`Frame`), what
taking an error does (`TakesError`), the invariant of the machine (`Inv`) and the states the machine and
its host can reach (`Reachable`).
-/

namespace Sys2Proof.Machine

/-! ### Frames -/

/-- The parts of the state an instruction may write, beside the program counter: nothing unless named. -/
structure Footprint where
  /-- General registers. -/
  regs : Reg → Prop := fun _ => False
  /-- Bytes of memory. -/
  mem : Nat → Prop := fun _ => False
  /-- Stack entries. -/
  entries : Fin 16 → Prop := fun _ => False
  /-- Pixels. -/
  pixels : Fin 32 → Fin 64 → Prop := fun _ _ => False
  index : Prop := False
  sp : Prop := False
  dt : Prop := False
  st : Prop := False
  wait : Prop := False
  run : Prop := False
  lastError : Prop := False
  draws : Prop := False

/-- From `s` to `t` only the parts the footprint names, and the program counter, may have changed.
Memory is compared byte by byte as it reads. The keypad inputs, the sound pulse, the parameters and
the model's mark of the first cycle are in no footprint: no instruction writes them (R33, R41). -/
structure Frame (f : Footprint) (s t : State) : Prop where
  regs : ∀ r, ¬ f.regs r → t.getV r = s.getV r
  mem : ∀ a, ¬ f.mem a → t.readByte a = s.readByte a
  entries : ∀ j, ¬ f.entries j → t.stack[j] = s.stack[j]
  pixels : ∀ r c, ¬ f.pixels r c → t.display.pixel r c = s.display.pixel r c
  index : ¬ f.index → t.i = s.i
  sp : ¬ f.sp → t.sp = s.sp
  dt : ¬ f.dt → t.dt = s.dt
  st : ¬ f.st → t.st = s.st
  wait : ¬ f.wait → t.wait = s.wait
  run : ¬ f.run → t.run = s.run
  lastError : ¬ f.lastError → t.lastError = s.lastError
  draws : ¬ f.draws → t.draws = s.draws
  keyDown : t.keyDown = s.keyDown
  observedKey : t.observedKey = s.observedKey
  soundExpired : t.soundExpired = s.soundExpired
  params : t.params = s.params
  cycled : t.cycled = s.cycled

/-- From `s` to `t` the driver took error `e` (60_exceptions.md rules R223 to R225): `last_error` is
`e`; the halt policy, and a stack error under either policy, halts with `PC` kept; otherwise `PC`
advances by 2 and `run` stays; nothing else changed. -/
def TakesError (e : Error) (s t : State) : Prop :=
  t.lastError = some e ∧
  (if s.params.errorPolicy = .halt ∨ e = .stackOverflow ∨ e = .stackUnderflow then
    t.run = .halted e ∧ t.pc = s.pc
  else t.run = s.run ∧ t.pc = s.pc + 2) ∧
  Frame { run := True, lastError := True } s t

/-- The value register `r` supplies to the result step of a flag instruction whose flag is `f`: the
flag if `r` is `VF` and `ALU_READ_MODE` is sequential, else what `r` held before (R140). -/
def resultOperand (s : State) (r : Reg) (f : Nat) : Nat :=
  if r = vf ∧ s.params.aluReadMode = .sequential then f else (s.getV r).toNat

/-- Some 1 bit of the sprite of `DRW Vx, Vy, n` lands on row `r`, column `c` (R171, R173, R174). -/
def SpriteCovers (s : State) (x y : Reg) (n : Nibble) (r : Fin 32) (c : Fin 64) : Prop :=
  ∃ k j : Nat, k < n.toNat ∧ j < 8 ∧ ((s.getV y).toNat + k) % 32 = r ∧ ((s.getV x).toNat + j) % 64 = c ∧
    (s.readByte (s.i.toNat + k)).getLsbD (7 - j) = true

/-! ### The invariant -/

/-- What holds of every state the machine reaches: memory in canonical form, a legal stack pointer
(R27), live return addresses that a fetch came from, a program counter that has not wrapped (R105),
an awaited key only at its own `FX0A` (R103), a halt recorded in `last_error` (R224), and no key
awaited before the first cycle (R38). -/
structure Inv (s : State) : Prop where
  mem : Memory.wf s.mem = true
  sp : s.sp.toNat ≤ 16
  entries : ∀ j : Fin 16, j.val < s.sp.toNat → s.stack[j].toNat ≤ 0xFFE
  pc : s.pc.toNat ≤ 0x10FE
  wait : ∀ x, s.wait = some x → fetchWord s = some (encode (.ldVxK x))
  halted : ∀ e, s.run = .halted e → s.lastError = some e
  fresh : s.cycled = false → s.wait = none

/-! ### Reachable states -/

/-- The states the machine can be in: any construction, then any ROM load, host action between cycles
and cycle, in any order the ports and the step allow (R109, R252, R254). -/
inductive Reachable : State → Prop
  | construct (p : Params) (policy : ResetRegPolicy) (font : Fontset) (draw : ResetDraws) :
      Reachable (State.construct p policy font draw)
  | load (rom : List Byte) (s t : State) : Reachable s → loadRom rom s = .next t → Reachable t
  | key (k : Key) (down : Bool) (s : State) : Reachable s → Reachable (setKey k down s)
  | observe (k : Key) (s : State) : Reachable s → Reachable (observeKey k s)
  | clear (s : State) : Reachable s → Reachable (clearObserved s)
  | tick (s t : State) : Reachable s → hostTick s = .next t → Reachable t
  | step (s t : State) : Reachable s → step s = .next t → Reachable t

end Sys2Proof.Machine
end

