-- ==== Sys2Proof/Certificates/Slice0/Obligations.lean ====
section
/-!
DEFINITION. The statements for the provers. Each formalises rules of spec/ or rests on its sections;
OBLIGATIONS.json lists them. `V[x]` is `getV x`, the pixel at row `r`, column `c` is `pixel r c`, a byte
of memory is `readByte a`.
-/

open Sys2Proof Sys2Proof.Machine

/-! ## Encoding and decoding (30_encoding.md) -/

/-- Decoding the word of a well-formed instruction gives it back, every operand at every value. -/
def Obligations.DecodeOfEncodeIsTheInstruction : Prop :=
  ∀ i : Instr, i.wf = true → decode (encode i) = .instr i

/-- A word that decodes to an instruction is that instruction's own word, and the instruction is
well-formed: each word has one meaning. -/
def Obligations.EncodeOfDecodedIsTheWord : Prop :=
  ∀ (w : Word) (i : Instr), decode w = .instr i → i.wf = true ∧ encode i = w

/-- R80: a word decoded to a row's instruction satisfies `w & mask == match` for that row. -/
def Obligations.DecodedWordMatchesItsRow : Prop :=
  ∀ (w : Word) (i : Instr), decode w = .instr i → w &&& opcodeMask i = opcodeMatch i

/-- R86: the unsupported words are exactly the five lists of the rule, and the result carries the word.
That family 9 follows family 5 is the spec's own decision D31. -/
def Obligations.UnsupportedWordsExactly : Prop :=
  ∀ w u : Word, decode w = .unsupported u ↔
    u = w ∧
    ((w.toNat / 4096 = 5 ∧ w.toNat % 16 ≠ 0) ∨
     (w.toNat / 4096 = 8 ∧ (w.toNat % 16) ∈ [8, 9, 0xA, 0xB, 0xC, 0xD, 0xF]) ∨
     (w.toNat / 4096 = 9 ∧ w.toNat % 16 ≠ 0) ∨
     (w.toNat / 4096 = 0xE ∧ (w.toNat % 256) ∉ [0x9E, 0xA1]) ∨
     (w.toNat / 4096 = 0xF ∧
       (w.toNat % 256) ∉ [0x07, 0x0A, 0x15, 0x18, 0x1E, 0x29, 0x33, 0x55, 0x65]))

/-- R76: family 0 is `CLS`, `RET` and else `SYS`. `SYS` is the spec's general knowledge. -/
def Obligations.FamilyZeroDecodes : Prop :=
  ∀ nnn : Addr, decode (0x0#4 ++ nnn) =
    if nnn = 0x0E0#12 then .instr .cls
    else if nnn = 0x0EE#12 then .instr .ret
    else .instr (.sys nnn)

/-- R77 and R79: families 5 and 9 are the register skips for low nibble 0 and unsupported otherwise. That
family 9 follows family 5 is the spec's own decision D31. -/
def Obligations.FamiliesFiveAndNineDecode : Prop :=
  ∀ (x y : Reg) (n : Nibble),
    (decode (0x5#4 ++ x ++ y ++ n) =
      if n = 0 then .instr (.seReg x y) else .unsupported (0x5#4 ++ x ++ y ++ n)) ∧
    (decode (0x9#4 ++ x ++ y ++ n) =
      if n = 0 then .instr (.sneReg x y) else .unsupported (0x9#4 ++ x ++ y ++ n))

/-- R78: family 8 by the low nibble. The selectors other than 4 and 5 are the spec's general knowledge. -/
def Obligations.FamilyEightDecodes : Prop :=
  ∀ x y : Reg,
    decode (0x8#4 ++ x ++ y ++ 0x0#4) = .instr (.ldReg x y) ∧
    decode (0x8#4 ++ x ++ y ++ 0x1#4) = .instr (.orReg x y) ∧
    decode (0x8#4 ++ x ++ y ++ 0x2#4) = .instr (.andReg x y) ∧
    decode (0x8#4 ++ x ++ y ++ 0x3#4) = .instr (.xorReg x y) ∧
    decode (0x8#4 ++ x ++ y ++ 0x4#4) = .instr (.addReg x y) ∧
    decode (0x8#4 ++ x ++ y ++ 0x5#4) = .instr (.sub x y) ∧
    decode (0x8#4 ++ x ++ y ++ 0x6#4) = .instr (.shr x y) ∧
    decode (0x8#4 ++ x ++ y ++ 0x7#4) = .instr (.subn x y) ∧
    decode (0x8#4 ++ x ++ y ++ 0xE#4) = .instr (.shl x y) ∧
    ∀ n : Nibble, n ∈ [0x8#4, 0x9#4, 0xA#4, 0xB#4, 0xC#4, 0xD#4, 0xF#4] →
      decode (0x8#4 ++ x ++ y ++ n) = .unsupported (0x8#4 ++ x ++ y ++ n)

/-- R81 and R82: families E and F by the low byte. The selectors are the spec's general knowledge. -/
def Obligations.FamiliesEAndFDecode : Prop :=
  ∀ (x : Reg) (kk : Byte),
    (decode (0xE#4 ++ x ++ kk) =
      if kk = 0x9E then .instr (.skp x)
      else if kk = 0xA1 then .instr (.sknp x)
      else .unsupported (0xE#4 ++ x ++ kk)) ∧
    (decode (0xF#4 ++ x ++ kk) =
      if kk = 0x07 then .instr (.ldVxDt x)
      else if kk = 0x0A then .instr (.ldVxK x)
      else if kk = 0x15 then .instr (.ldDtVx x)
      else if kk = 0x18 then .instr (.ldStVx x)
      else if kk = 0x1E then .instr (.addI x)
      else if kk = 0x29 then .instr (.ldF x)
      else if kk = 0x33 then .instr (.ldB x)
      else if kk = 0x55 then .instr (.ldMemVx x)
      else if kk = 0x65 then .instr (.ldVxMem x)
      else .unsupported (0xF#4 ++ x ++ kk))

/-- All twenty decoder vectors DEC-1 to DEC-20 of 95_test_vectors.md, and one word or more of each of the 35
rows from the other vectors of that file (0xE29E from R182's example), decode as they say. With the fields of R71 at different values they
fix where each field stands, which a round trip alone does not. -/
def Obligations.SpecWordsDecode : Prop :=
  (decode 0x00E0#16 = .instr .cls ∧ decode 0x00EE#16 = .instr .ret ∧
    decode 0x0000#16 = .instr (.sys 0x000#12) ∧ decode 0x5001#16 = .unsupported 0x5001#16 ∧
    decode 0x5120#16 = .instr (.seReg 1#4 2#4) ∧ decode 0x8124#16 = .instr (.addReg 1#4 2#4) ∧
    decode 0x8125#16 = .instr (.sub 1#4 2#4) ∧ decode 0x8008#16 = .unsupported 0x8008#16 ∧
    decode 0x800F#16 = .unsupported 0x800F#16 ∧ decode 0x812E#16 = .instr (.shl 1#4 2#4)) ∧
  (decode 0x9001#16 = .unsupported 0x9001#16 ∧ decode 0xD120#16 = .instr (.drw 1#4 2#4 0#4) ∧
    decode 0xE09E#16 = .instr (.skp 0#4) ∧ decode 0xE09F#16 = .unsupported 0xE09F#16 ∧
    decode 0xE000#16 = .unsupported 0xE000#16 ∧ decode 0xF065#16 = .instr (.ldVxMem 0#4) ∧
    decode 0xF066#16 = .unsupported 0xF066#16 ∧ decode 0xF000#16 = .unsupported 0xF000#16 ∧
    decode 0xB123#16 = .instr (.jpV0 0x123#12) ∧ decode 0x00E1#16 = .instr (.sys 0x0E1#12)) ∧
  (decode 0x0123#16 = .instr (.sys 0x123#12) ∧ decode 0x1234#16 = .instr (.jp 0x234#12) ∧
    decode 0x220A#16 = .instr (.call 0x20A#12) ∧ decode 0x3342#16 = .instr (.seImm 3#4 0x42#8) ∧
    decode 0x4342#16 = .instr (.sneImm 3#4 0x42#8) ∧ decode 0x6A2F#16 = .instr (.ldImm 0xA#4 0x2F#8) ∧
    decode 0x71FF#16 = .instr (.addImm 1#4 0xFF#8) ∧ decode 0x9120#16 = .instr (.sneReg 1#4 2#4) ∧
    decode 0xA300#16 = .instr (.ldI 0x300#12) ∧ decode 0xC30F#16 = .instr (.rnd 3#4 0x0F#8) ∧
    decode 0xD012#16 = .instr (.drw 0#4 1#4 2#4)) ∧
  (decode 0x8120#16 = .instr (.ldReg 1#4 2#4) ∧ decode 0x8121#16 = .instr (.orReg 1#4 2#4) ∧
    decode 0x8122#16 = .instr (.andReg 1#4 2#4) ∧ decode 0x8123#16 = .instr (.xorReg 1#4 2#4) ∧
    decode 0x8126#16 = .instr (.shr 1#4 2#4) ∧ decode 0x8127#16 = .instr (.subn 1#4 2#4)) ∧
  (decode 0xE0A1#16 = .instr (.sknp 0#4) ∧ decode 0xE29E#16 = .instr (.skp 2#4) ∧
    decode 0xF107#16 = .instr (.ldVxDt 1#4) ∧ decode 0xF50A#16 = .instr (.ldVxK 5#4) ∧
    decode 0xF315#16 = .instr (.ldDtVx 3#4) ∧ decode 0xF018#16 = .instr (.ldStVx 0#4) ∧
    decode 0xF01E#16 = .instr (.addI 0#4) ∧ decode 0xF429#16 = .instr (.ldF 4#4) ∧
    decode 0xF033#16 = .instr (.ldB 0#4) ∧ decode 0xFF55#16 = .instr (.ldMemVx 0xF#4) ∧
    decode 0xF265#16 = .instr (.ldVxMem 2#4))

/-! ## The cycle (40_cycle_driver.md) -/

/-- A step at a running machine with no key awaited runs the instruction that the big-endian word at
`PC` decodes to, on the state the start of the cycle leaves. That the byte at the lower address is the high
one is the spec's own decision D1, from general knowledge (R53, log entry 12). -/
def Obligations.StepRunsTheDecodedInstruction : Prop :=
  ∀ (s : State) (i : Instr), s.run = .running → s.wait = none → s.pc.toNat ≤ 0xFFE →
    decode (s.readByte s.pc.toNat ++ s.readByte (s.pc.toNat + 1)) = .instr i →
    step s = exec i (beginCycle s)

/-- What the start of a cycle does: the sound pulse is cleared, the tick takes each timer above zero down
by one if it is in the cycle and sets the pulse exactly when `ST` goes from 1 to 0, and nothing else
changes (the model also marks that a cycle has begun). The mark is log entry 4; that the tick belongs in
the cycle is the spec's own decision D9. -/
def Obligations.CycleStartsWithTheTick : Prop :=
  ∀ s : State,
    (beginCycle s).dt.toNat = (if s.params.timerTickInCycle then s.dt.toNat - 1 else s.dt.toNat) ∧
    (beginCycle s).st.toNat = (if s.params.timerTickInCycle then s.st.toNat - 1 else s.st.toNat) ∧
    ((beginCycle s).soundExpired = true ↔ s.params.timerTickInCycle = true ∧ s.st.toNat = 1) ∧
    (beginCycle s).pc = s.pc ∧ (beginCycle s).cycled = true ∧
    Frame { dt := True, st := True } { s with soundExpired := (beginCycle s).soundExpired, cycled := true }
      (beginCycle s)

/-- R102: when `PC + 1 > 0xFFF` the cycle terminates the run, with the tick done and no error. That `PC` =
0xFFF counts is the spec's own decision D3. -/
def Obligations.FetchOffTheEndTerminates : Prop :=
  ∀ s : State, s.run = .running → s.wait = none → s.pc.toNat + 1 > 0xFFF →
    ∃ t, step s = .next t ∧ t.run = .terminated ∧ t.lastError = s.lastError ∧ t.pc = s.pc ∧
      Frame { run := True } (beginCycle s) t

/-- R103: a cycle that awaits a key ticks, fetches nothing, and completes the `FX0A` when a key is
observed; the key is not consumed. When the read completes is the spec's own decision D8. -/
def Obligations.AwaitingKeyCycle : Prop :=
  ∀ (s : State) (x : Reg), s.run = .running → s.wait = some x →
    ∃ t, step s = .next t ∧
      match s.observedKey with
      | some k => (t.getV x).toNat = k.toNat ∧ t.wait = none ∧ t.pc = s.pc + 2 ∧
          Frame { regs := fun r => r = x, wait := True } (beginCycle s) t
      | none => t = beginCycle s

/-- `Halted` and `Terminated` are final: the core has no step, which the model answers with a fault named
after the state (log entry 1: the fault is the model's form of having no step). -/
def Obligations.FinalStatesHaveNoStep : Prop :=
  ∀ s : State, (∀ e, s.run = .halted e → step s = .fault (.halted e)) ∧
    (s.run = .terminated → step s = .fault .terminated)

/-- A fetched word that decodes to unsupported raises `Unsupported` with that word. What taking the error
does is the spec's own decision D13. -/
def Obligations.UnsupportedWordRaises : Prop :=
  ∀ (s : State) (w : Word), s.run = .running → s.wait = none → s.pc.toNat ≤ 0xFFE →
    decode (s.readByte s.pc.toNat ++ s.readByte (s.pc.toNat + 1)) = .unsupported w →
    w = s.readByte s.pc.toNat ++ s.readByte (s.pc.toNat + 1) ∧
    ∃ t, step s = .next t ∧ TakesError (.unsupported w) (beginCycle s) t

/-! ## Errors (60_exceptions.md) -/

/-- R224: under the halt policy, and for a stack error under either policy, the driver sets `last_error`
and halts with `PC` kept, and the machine then has no further step. The policy is the spec's own decision
D13, the fault of the further step log entry 1. -/
def Obligations.HaltPolicyHalts : Prop :=
  ∀ (e : Error) (s : State),
    s.params.errorPolicy = .halt ∨ e = .stackOverflow ∨ e = .stackUnderflow →
    ∃ t, raiseError e s = .next t ∧ t.lastError = some e ∧ t.run = .halted e ∧ t.pc = s.pc ∧
      Frame { run := True, lastError := True } s t ∧ step t = .fault (.halted e)

/-- R225: under the skip policy any other error is recorded and `PC` advances by 2, and the machine runs
on. The policy is the spec's own decision D13. -/
def Obligations.SkipPolicySkips : Prop :=
  ∀ (e : Error) (s : State),
    s.params.errorPolicy = .skip → e ≠ .stackOverflow → e ≠ .stackUnderflow →
    ∃ t, raiseError e s = .next t ∧ t.lastError = some e ∧ t.run = s.run ∧ t.pc = s.pc + 2 ∧
      Frame { lastError := True } s t

/-- R223, over all instructions: an instruction either takes no error, or takes exactly one and changes
nothing but what taking it changes. The all-or-nothing reading is the spec's own decision D17. -/
def Obligations.ErrorsArePrecise : Prop :=
  ∀ (i : Instr) (s t : State), exec i s = .next t →
    (t.run = s.run ∧ t.lastError = s.lastError) ∨ ∃ e, TakesError e s t

/-- `SYS` always raises `SysNotExecutable` with its address (R122). That it is an error is the spec's own
decision D15. -/
def Obligations.SysRaises : Prop :=
  ∀ (nnn : Addr) (s : State),
    ∃ t, exec (.sys nnn) s = .next t ∧ TakesError (.sysNotExecutable nnn) s t


/-! ## Control flow (41_control_flow.md) -/

/-- R125 and R126: `JP` sets `PC` to `nnn` exactly, `JP V0` to `nnn + V0`, unreduced; nothing else
changes. A target the fetch cannot use leaves nothing to fetch. For `JP V0` that last clause is the spec's
own inference. -/
def Obligations.JumpsSetThePc : Prop :=
  ∀ (nnn : Addr) (s : State),
    (∃ t, exec (.jp nnn) s = .next t ∧ t.pc.toNat = nnn.toNat ∧
      (nnn.toNat > 0xFFE → fetchWord t = none) ∧ Frame {} s t) ∧
    (∃ t, exec (.jpV0 nnn) s = .next t ∧ t.pc.toNat = nnn.toNat + (s.getV 0).toNat ∧
      (nnn.toNat + (s.getV 0).toNat > 0xFFE → fetchWord t = none) ∧ Frame {} s t)

/-- R124: `CALL` with fewer than 16 live entries pushes its own address and jumps. That the value pushed is
the address of the `CALL` itself is the spec's own decision D11. -/
def Obligations.CallPushesItsAddress : Prop :=
  ∀ (nnn : Addr) (s : State), s.sp.toNat < 16 →
    ∃ t, exec (.call nnn) s = .next t ∧ t.pc.toNat = nnn.toNat ∧ t.sp.toNat = s.sp.toNat + 1 ∧
      (∀ j : Fin 16, j.val = s.sp.toNat → t.stack[j] = s.pc) ∧
      Frame { entries := fun j => j.val = s.sp.toNat, sp := True } s t

/-- R123: `RET` with a live entry pops it into `PC`, and the driver adds 2; the entry keeps its value. That
`RET` reports `Next` is the spec's own decision D11, that a pop keeps the entry D12. -/
def Obligations.RetResumesAfterTheCall : Prop :=
  ∀ s : State, 0 < s.sp.toNat → s.sp.toNat ≤ 16 →
    ∃ t, exec .ret s = .next t ∧
      (∀ j : Fin 16, j.val + 1 = s.sp.toNat → t.pc = s.stack[j] + 2) ∧
      t.sp.toNat = s.sp.toNat - 1 ∧ Frame { sp := True } s t

/-- R221 and R222: the first 16 nested calls succeed, a call with 16 live entries raises `StackOverflow`,
a return with none raises `StackUnderflow`, and both halt the program under either error policy. That both
policies halt is the spec's conflict choice C6, that an error keeps `PC` its decision D13. -/
def Obligations.StackErrorsAreFatal : Prop :=
  ∀ (nnn : Addr) (s : State),
    (s.sp.toNat < 16 → ∃ t, exec (.call nnn) s = .next t ∧ t.sp.toNat = s.sp.toNat + 1 ∧
      t.run = s.run) ∧
    (s.sp.toNat = 16 → ∃ t, exec (.call nnn) s = .next t ∧ TakesError .stackOverflow s t ∧
      t.run = .halted .stackOverflow ∧ t.pc = s.pc) ∧
    (s.sp.toNat = 0 → ∃ t, exec .ret s = .next t ∧ TakesError .stackUnderflow s t ∧
      t.run = .halted .stackUnderflow ∧ t.pc = s.pc)

/-- The model's choice (log entry 5): with a stack pointer above 16, which no rule leaves, `CALL` and `RET`
stop by name. -/
def Obligations.IllegalStackPointerStops : Prop :=
  ∀ (nnn : Addr) (s : State), 16 < s.sp.toNat →
    exec (.call nnn) s = .fault .stackPointerIllegal ∧ exec .ret s = .fault .stackPointerIllegal

/-- R132: a return that finds the stack as a call at `a` left it resumes at `a + 2` with `SP` as before
the call, whatever ran between. The spec infers this from R123 and R124. -/
def Obligations.CallAndReturnMatch : Prop :=
  ∀ (nnn : Addr) (s t u : State), s.sp.toNat < 16 → exec (.call nnn) s = .next t →
    u.sp = t.sp → (∀ j : Fin 16, j.val < t.sp.toNat → u.stack[j] = t.stack[j]) →
    ∃ w, exec .ret u = .next w ∧ w.pc = s.pc + 2 ∧ w.sp = s.sp

/-- R127 to R130: a skip moves `PC` by 4 if its condition holds and by 2 if not, and changes nothing else.
The conditions are the spec's general knowledge. -/
def Obligations.SkipsCompareRegisters : Prop :=
  ∀ (x y : Reg) (kk : Byte) (s : State),
    (∃ t, exec (.seImm x kk) s = .next t ∧
      t.pc = s.pc + (if (s.getV x).toNat = kk.toNat then 4 else 2) ∧ Frame {} s t) ∧
    (∃ t, exec (.sneImm x kk) s = .next t ∧
      t.pc = s.pc + (if (s.getV x).toNat = kk.toNat then 2 else 4) ∧ Frame {} s t) ∧
    (∃ t, exec (.seReg x y) s = .next t ∧
      t.pc = s.pc + (if (s.getV x).toNat = (s.getV y).toNat then 4 else 2) ∧ Frame {} s t) ∧
    (∃ t, exec (.sneReg x y) s = .next t ∧
      t.pc = s.pc + (if (s.getV x).toNat = (s.getV y).toNat then 2 else 4) ∧ Frame {} s t)

/-! ## Register, arithmetic and logic (42_alu.md) -/

/-- R141 and R143: the loads of an immediate and of a register write `V[x]` and nothing else. -/
def Obligations.LoadsIntoRegisters : Prop :=
  ∀ (x y : Reg) (kk : Byte) (s : State),
    (∃ t, exec (.ldImm x kk) s = .next t ∧ t.getV x = kk ∧ t.pc = s.pc + 2 ∧
      Frame { regs := fun r => r = x } s t) ∧
    (∃ t, exec (.ldReg x y) s = .next t ∧ t.getV x = s.getV y ∧ t.pc = s.pc + 2 ∧
      Frame { regs := fun r => r = x } s t)

/-- R142: the add of an immediate wraps mod 256 and writes no flag (the spec supplies this instruction from
general knowledge, C7). -/
def Obligations.ImmediateAddWraps : Prop :=
  ∀ (x : Reg) (kk : Byte) (s : State),
    ∃ t, exec (.addImm x kk) s = .next t ∧
      (t.getV x).toNat = ((s.getV x).toNat + kk.toNat) % 256 ∧ t.pc = s.pc + 2 ∧
      Frame { regs := fun r => r = x } s t

/-- R144 to R146: OR, AND and XOR, bit by bit, write `V[x]` and no flag. -/
def Obligations.LogicInstructions : Prop :=
  ∀ (x y : Reg) (s : State),
    (∃ t, exec (.orReg x y) s = .next t ∧
      (∀ b, (t.getV x).getLsbD b = ((s.getV x).getLsbD b || (s.getV y).getLsbD b)) ∧
      t.pc = s.pc + 2 ∧ Frame { regs := fun r => r = x } s t) ∧
    (∃ t, exec (.andReg x y) s = .next t ∧
      (∀ b, (t.getV x).getLsbD b = ((s.getV x).getLsbD b && (s.getV y).getLsbD b)) ∧
      t.pc = s.pc + 2 ∧ Frame { regs := fun r => r = x } s t) ∧
    (∃ t, exec (.xorReg x y) s = .next t ∧
      (∀ b, (t.getV x).getLsbD b = ((s.getV x).getLsbD b ^^ (s.getV y).getLsbD b)) ∧
      t.pc = s.pc + 2 ∧ Frame { regs := fun r => r = x } s t)

/-- R147: add with carry, every alias and both read modes. What a `VF` operand supplies by `ALU_READ_MODE` is
the spec's own decision D5 (R140, log entry 15). -/
def Obligations.AddWithCarry : Prop :=
  ∀ (x y : Reg) (s : State),
    ∃ t, exec (.addReg x y) s = .next t ∧
      (let f := if (s.getV x).toNat + (s.getV y).toNat > 255 then 1 else 0
       (x ≠ vf → (t.getV vf).toNat = f) ∧
       (t.getV x).toNat = (resultOperand s x f + resultOperand s y f) % 256) ∧
      t.pc = s.pc + 2 ∧ Frame { regs := fun r => r = x ∨ r = vf } s t

/-- R148 and R150: both subtractions with not-borrow, every alias and both read modes. What a `VF` operand
supplies by `ALU_READ_MODE` is the spec's own decision D5 (R140, log entry 15). -/
def Obligations.SubtractWithNotBorrow : Prop :=
  ∀ (x y : Reg) (s : State),
    (∃ t, exec (.sub x y) s = .next t ∧
      (let f := if (s.getV x).toNat ≥ (s.getV y).toNat then 1 else 0
       (x ≠ vf → (t.getV vf).toNat = f) ∧
       (t.getV x).toNat = (resultOperand s x f + 256 - resultOperand s y f) % 256) ∧
      t.pc = s.pc + 2 ∧ Frame { regs := fun r => r = x ∨ r = vf } s t) ∧
    (∃ t, exec (.subn x y) s = .next t ∧
      (let f := if (s.getV y).toNat ≥ (s.getV x).toNat then 1 else 0
       (x ≠ vf → (t.getV vf).toNat = f) ∧
       (t.getV x).toNat = (resultOperand s y f + 256 - resultOperand s x f) % 256) ∧
      t.pc = s.pc + 2 ∧ Frame { regs := fun r => r = x ∨ r = vf } s t)

/-- R149 and R151: the shifts of the shift source, every alias and both read modes. The shift source is the
spec's own decision D4, what a `VF` operand supplies by `ALU_READ_MODE` D5 (R140, log entry 15). -/
def Obligations.ShiftsOfTheSource : Prop :=
  ∀ (x y : Reg) (s : State),
    let src := if s.params.shiftSource = .vx then x else y
    (∃ t, exec (.shr x y) s = .next t ∧
      (let f := (s.getV src).toNat % 2
       (x ≠ vf → (t.getV vf).toNat = f) ∧ (t.getV x).toNat = resultOperand s src f / 2) ∧
      t.pc = s.pc + 2 ∧ Frame { regs := fun r => r = x ∨ r = vf } s t) ∧
    (∃ t, exec (.shl x y) s = .next t ∧
      (let f := (s.getV src).toNat / 128
       (x ≠ vf → (t.getV vf).toNat = f) ∧ (t.getV x).toNat = resultOperand s src f * 2 % 256) ∧
      t.pc = s.pc + 2 ∧ Frame { regs := fun r => r = x ∨ r = vf } s t)

/-- R152: `RND` writes the cycle's random byte masked with `kk`, whatever that byte is, and the next draw is
another one: the model's draw counter advances by 1 (log entry 3). That the byte is a free draw is the spec's
own decision D23. -/
def Obligations.RandomIsMasked : Prop :=
  ∀ (x : Reg) (kk : Byte) (s : State),
    ∃ t, exec (.rnd x kk) s = .next t ∧
      (∀ b, (t.getV x).getLsbD b = ((Config.randomByte s.draws).getLsbD b && kk.getLsbD b)) ∧
      t.draws = s.draws + 1 ∧ t.pc = s.pc + 2 ∧ Frame { regs := fun r => r = x, draws := True } s t

/-! ## Display (43_display.md) -/

/-- R170: `CLS` turns every pixel OFF and changes nothing else. -/
def Obligations.ClearTurnsEveryPixelOff : Prop :=
  ∀ s : State, ∃ t, exec .cls s = .next t ∧ (∀ r c, t.display.pixel r c = false) ∧
    t.pc = s.pc + 2 ∧ Frame { pixels := fun _ _ => True } s t

/-- The loop of R171 is the blit its text describes: with the sprite inside memory, or of height 0, every
pixel is the old one flipped exactly where a sprite bit lands, and `VF` is 1 if any pixel went from ON to
OFF by it, else 0 (R172). The order of the bits in a row is the spec's own decision D21 (R173). -/
def Obligations.DrawIsAnXorBlit : Prop :=
  ∀ (x y : Reg) (n : Nibble) (s : State),
    n = 0 ∨ s.i.toNat + n.toNat - 1 ≤ 0xFFF →
    ∃ t, exec (.drw x y n) s = .next t ∧
      (∀ r c, SpriteCovers s x y n r c → t.display.pixel r c = !s.display.pixel r c) ∧
      (∀ r c, ¬ SpriteCovers s x y n r c → t.display.pixel r c = s.display.pixel r c) ∧
      ((∃ r c, s.display.pixel r c = true ∧ t.display.pixel r c = false) → t.getV vf = 1) ∧
      ((¬ ∃ r c, s.display.pixel r c = true ∧ t.display.pixel r c = false) → t.getV vf = 0) ∧
      t.pc = s.pc + 2 ∧ Frame { regs := fun r => r = vf, pixels := fun _ _ => True } s t

/-- R171, R223: a sprite that reaches past 0xFFF raises `MemOutOfBounds` and changes no pixel and no
register. That an error undoes nothing because nothing was done is the spec's own decision D17. -/
def Obligations.DrawPastMemoryRaises : Prop :=
  ∀ (x y : Reg) (n : Nibble) (s : State), n ≠ 0 → s.i.toNat + n.toNat - 1 > 0xFFF →
    ∃ t, exec (.drw x y n) s = .next t ∧ TakesError (.memOutOfBounds s.i n.toNat) s t

/-- R174: drawing the same sprite twice at the same position restores the display, and the second draw
reports a collision exactly if some sprite bit covers a pixel that was OFF before the first (on a blank
display: whenever the sprite has a 1 bit; see log entry 8). -/
def Obligations.DrawTwiceRestores : Prop :=
  ∀ (x y : Reg) (n : Nibble) (s t s' : State),
    n = 0 ∨ s.i.toNat + n.toNat - 1 ≤ 0xFFF → exec (.drw x y n) s = .next t →
    s'.display = t.display → s'.i = s.i → s'.mem = s.mem →
    s'.getV x = s.getV x → s'.getV y = s.getV y →
    ∃ u, exec (.drw x y n) s' = .next u ∧ u.display = s.display ∧
      (u.getV vf = 1 ↔ ∃ r c, SpriteCovers s x y n r c ∧ s.display.pixel r c = false)

/-! ## Timers and keypad (44_keypad_timers.md) -/

/-- R182, R183 and R188: the key skips, under both values of `SKP_KEY_SOURCE`. The decided source is the
spec's own decision D6, the reading of values above 15 D7. -/
def Obligations.KeySkips : Prop :=
  ∀ (x : Reg) (s : State),
    let pressed :=
      (s.params.skpKeySource = .observedKey ∧
        ∃ k, s.observedKey = some k ∧ k.toNat = (s.getV x).toNat) ∨
      (s.params.skpKeySource = .keyDown ∧ ∃ h : (s.getV x).toNat < 16, s.keyDown[(s.getV x).toNat] = true)
    (∃ t, exec (.skp x) s = .next t ∧
      (pressed → t.pc = s.pc + 4) ∧ (¬ pressed → t.pc = s.pc + 2) ∧ Frame {} s t) ∧
    (∃ t, exec (.sknp x) s = .next t ∧
      (pressed → t.pc = s.pc + 2) ∧ (¬ pressed → t.pc = s.pc + 4) ∧ Frame {} s t)

/-- R185: `LD Vx, K` stores an observed key at once and does not consume it, and awaits one otherwise with
`PC` staying. Completing at once is the spec's own decision D8. -/
def Obligations.KeyReadCompletesOrWaits : Prop :=
  ∀ (x : Reg) (s : State),
    (∀ k, s.observedKey = some k → ∃ t, exec (.ldVxK x) s = .next t ∧
      (t.getV x).toNat = k.toNat ∧ t.pc = s.pc + 2 ∧ Frame { regs := fun r => r = x } s t) ∧
    (s.observedKey = none → ∃ t, exec (.ldVxK x) s = .next t ∧
      t.wait = some x ∧ t.pc = s.pc ∧ Frame { wait := True } s t)

/-- R184, R186 and R187: the timer moves. -/
def Obligations.TimerMoves : Prop :=
  ∀ (x : Reg) (s : State),
    (∃ t, exec (.ldVxDt x) s = .next t ∧ t.getV x = s.dt ∧ t.pc = s.pc + 2 ∧
      Frame { regs := fun r => r = x } s t) ∧
    (∃ t, exec (.ldDtVx x) s = .next t ∧ t.dt = s.getV x ∧ t.pc = s.pc + 2 ∧
      Frame { dt := True } s t) ∧
    (∃ t, exec (.ldStVx x) s = .next t ∧ t.st = s.getV x ∧ t.pc = s.pc + 2 ∧
      Frame { st := True } s t)

/-! ## Index register and memory (45_index_memory.md, 20_memory.md) -/

/-- R200 and R201: loading `I`, and adding to it mod 65536 with no flag. `LD I` is the spec's general
knowledge, the width of the sum its own decision D18. -/
def Obligations.IndexLoadAndAdd : Prop :=
  ∀ (nnn : Addr) (x : Reg) (s : State),
    (∃ t, exec (.ldI nnn) s = .next t ∧ t.i.toNat = nnn.toNat ∧ t.pc = s.pc + 2 ∧
      Frame { index := True } s t) ∧
    (∃ t, exec (.addI x) s = .next t ∧
      t.i.toNat = (s.i.toNat + (s.getV x).toNat) % 65536 ∧ t.pc = s.pc + 2 ∧
      Frame { index := True } s t)

/-- R202: the glyph address for the digits 0 to 15, and each `GLYPH_POLICY` above them. The policies are
the spec's own decision D16. -/
def Obligations.GlyphAddresses : Prop :=
  ∀ (x : Reg) (s : State),
    if (s.getV x).toNat > 15 ∧ s.params.glyphPolicy = .fault then
      ∃ t, exec (.ldF x) s = .next t ∧ TakesError (.glyphOutOfRange (s.getV x)) s t
    else
      ∃ t, exec (.ldF x) s = .next t ∧
        t.i.toNat =
          (if (s.getV x).toNat > 15 ∧ s.params.glyphPolicy = .mask then 5 * ((s.getV x).toNat % 16)
           else 5 * (s.getV x).toNat) ∧
        t.pc = s.pc + 2 ∧ Frame { index := True } s t

/-- R204: the three decimal digits at `I`, and every other byte of memory as before; where `I + 2` passes
0xFFF, `MemOutOfBounds` and nothing written. What the error does is the spec's own decisions D13 and D17.
-/
def Obligations.BcdStoresDigits : Prop :=
  ∀ (x : Reg) (s : State),
    if s.i.toNat + 2 > 0xFFF then
      ∃ t, exec (.ldB x) s = .next t ∧ TakesError (.memOutOfBounds s.i 3) s t
    else
      ∃ t, exec (.ldB x) s = .next t ∧
        (t.readByte s.i.toNat).toNat = (s.getV x).toNat / 100 ∧
        (t.readByte (s.i.toNat + 1)).toNat = (s.getV x).toNat / 10 % 10 ∧
        (t.readByte (s.i.toNat + 2)).toNat = (s.getV x).toNat % 10 ∧
        t.pc = s.pc + 2 ∧
        Frame { mem := fun a => s.i.toNat ≤ a ∧ a ≤ s.i.toNat + 2 } s t

/-- R205: the dump of `V0` to `V[x]`, `I` advanced by `x + 1`, and every byte outside the range as before;
where the range passes 0xFFF, `MemOutOfBounds` and nothing written. What the error does is the spec's own
decisions D13 and D17. -/
def Obligations.DumpStoresRegisters : Prop :=
  ∀ (x : Reg) (s : State),
    if s.i.toNat + x.toNat > 0xFFF then
      ∃ t, exec (.ldMemVx x) s = .next t ∧ TakesError (.memOutOfBounds s.i (x.toNat + 1)) s t
    else
      ∃ t, exec (.ldMemVx x) s = .next t ∧
        (∀ r : Reg, r.toNat ≤ x.toNat → t.readByte (s.i.toNat + r.toNat) = s.getV r) ∧
        t.i.toNat = s.i.toNat + x.toNat + 1 ∧ t.pc = s.pc + 2 ∧
        Frame { mem := fun a => s.i.toNat ≤ a ∧ a ≤ s.i.toNat + x.toNat, index := True } s t

/-- R206: the load of `V0` to `V[x]`, `I` advanced by `x + 1`, and every register above `x` as before;
where the range passes 0xFFF, `MemOutOfBounds` and nothing loaded. What the error does is the spec's own
decisions D13 and D17. -/
def Obligations.LoadReadsRegisters : Prop :=
  ∀ (x : Reg) (s : State),
    if s.i.toNat + x.toNat > 0xFFF then
      ∃ t, exec (.ldVxMem x) s = .next t ∧ TakesError (.memOutOfBounds s.i (x.toNat + 1)) s t
    else
      ∃ t, exec (.ldVxMem x) s = .next t ∧
        (∀ r : Reg, r.toNat ≤ x.toNat → t.getV r = s.readByte (s.i.toNat + r.toNat)) ∧
        t.i.toNat = s.i.toNat + x.toNat + 1 ∧ t.pc = s.pc + 2 ∧
        Frame { regs := fun r => r.toNat ≤ x.toNat, index := True } s t

/-- R207: a load through the range a dump wrote gives the registers back, whatever happened to the
registers in between. The spec infers this from R205 and R206. -/
def Obligations.LoadUndoesDump : Prop :=
  ∀ (x : Reg) (s t u : State), s.i.toNat + x.toNat ≤ 0xFFF → exec (.ldMemVx x) s = .next t →
    u.mem = t.mem → u.i = s.i →
    ∃ w, exec (.ldVxMem x) u = .next w ∧ (∀ r : Reg, r.toNat ≤ x.toNat → w.getV r = s.getV r) ∧
      w.i = t.i

/-- Two memories in canonical form that read alike at every address are the same list: the canonical form
is what makes equal memories equal data. The form is the model's (log entry 9). -/
def Obligations.CanonicalMemoriesAgree : Prop :=
  ∀ m m' : List Host.Cell, Memory.wf m = true → Memory.wf m' = true →
    (∀ a, Memory.read m a = Memory.read m' a) → m = m'

/-! ## Reset and ports (70_reset_and_hazards.md, 60_exceptions.md) -/

/-- R38, R37 and R6: the value of every piece of state after construction, the fontset bytes and the decided
parameters written out. The values of `V`, `I`, `SP`, the stack, the keypad, `wait`, `run` and the outputs are
the spec's own decision D19, the fontset bytes D22, the parameters D4, D5, D6, D9, D13 and D16. -/
def Obligations.ResetValues : Prop :=
  (∀ a, State.reset.readByte a =
    ([[0xF0, 0x90, 0x90, 0x90, 0xF0], [0x20, 0x60, 0x20, 0x20, 0x70], [0xF0, 0x10, 0xF0, 0x80, 0xF0],
      [0xF0, 0x10, 0xF0, 0x10, 0xF0], [0x90, 0x90, 0xF0, 0x10, 0x10], [0xF0, 0x80, 0xF0, 0x10, 0xF0],
      [0xF0, 0x80, 0xF0, 0x90, 0xF0], [0xF0, 0x10, 0x20, 0x40, 0x40], [0xF0, 0x90, 0xF0, 0x90, 0xF0],
      [0xF0, 0x90, 0xF0, 0x10, 0xF0], [0xF0, 0x90, 0xF0, 0x90, 0x90], [0xE0, 0x90, 0xE0, 0x90, 0xE0],
      [0xF0, 0x80, 0x80, 0x80, 0xF0], [0xE0, 0x90, 0x90, 0x90, 0xE0], [0xF0, 0x80, 0xF0, 0x80, 0xF0],
      [0xF0, 0x80, 0xF0, 0x80, 0x80]] : List (List Byte)).flatten.getD a 0) ∧
  State.reset.pc = 0x200 ∧ (∀ r c, State.reset.display.pixel r c = false) ∧
  State.reset.dt = 0 ∧ State.reset.st = 0 ∧
  (∀ x, State.reset.getV x = 0) ∧ State.reset.i = 0 ∧ State.reset.sp = 0 ∧
  (∀ j : Fin 16, State.reset.stack[j] = 0) ∧ (∀ k : Fin 16, State.reset.keyDown[k] = false) ∧
  State.reset.observedKey = none ∧ State.reset.wait = none ∧ State.reset.run = .running ∧
  State.reset.lastError = none ∧ State.reset.soundExpired = false ∧
  State.reset.params =
    { shiftSource := .vx, aluReadMode := .sequential, skpKeySource := .observedKey,
      timerTickInCycle := true, errorPolicy := .halt, glyphPolicy := .fault }

/-- A construction with any fontset and parameters: the fontset at 0x000 to 0x04F and zero above it; the
decided ones give the reset state. -/
def Obligations.ConstructionInstallsTheFontset : Prop :=
  (∀ (p : Params) (policy : ResetRegPolicy) (font : Fontset) (draw : ResetDraws) (a : Nat),
    (State.construct p policy font draw).readByte a = font.toList.getD a 0) ∧
  ∀ draw : ResetDraws, State.construct decidedParams .zero decidedFontset draw = State.reset

/-- R252: before the first cycle a ROM that fits is copied to 0x200 on and nothing else changes; one of
more than 3584 bytes raises `RomTooLarge`; a later load is refused. The refusal is the spec's own decision
D20, in the model's form (log entry 4). -/
def Obligations.RomLoads : Prop :=
  ∀ (rom : List Byte) (s : State),
    if s.cycled then loadRom rom s = .refused .romLoadAfterFirstCycle
    else if rom.length > 3584 then loadRom rom s = .fault (.romTooLarge rom.length)
    else ∃ t, loadRom rom s = .next t ∧ (∀ j, j < rom.length → t.readByte (0x200 + j) = rom.getD j 0) ∧
      t.pc = s.pc ∧ Frame { mem := fun a => 0x200 ≤ a ∧ a < 0x200 + rom.length } s t

/-- R238: the three operations of the input feed port write the keypad inputs they name and nothing else. -/
def Obligations.InputPortsWriteTheKeypad : Prop :=
  ∀ (k : Key) (down : Bool) (s : State),
    (∀ j : Fin 16, (setKey k down s).keyDown[j] = if j.val = k.toNat then down else s.keyDown[j]) ∧
    setKey k down s = { s with keyDown := (setKey k down s).keyDown } ∧
    observeKey k s = { s with observedKey := some k } ∧
    clearObserved s = { s with observedKey := none }

/-- R107 and R180: the host's tick exists only under `TIMER_TICK_IN_CYCLE = false`, and then takes each timer
above zero down by one. That it is refused otherwise is the model's form of having no such event, that it
stops in a final state is log entry 7. -/
def Obligations.HostTickCountsDown : Prop :=
  ∀ s : State,
    if s.params.timerTickInCycle then hostTick s = .refused .hostTickWithTickInCycle
    else if s.run = .running then
      ∃ t, hostTick s = .next t ∧ t.dt.toNat = s.dt.toNat - 1 ∧ t.st.toNat = s.st.toNat - 1 ∧
        (t.soundExpired = true ↔ s.soundExpired = true ∨ s.st.toNat = 1) ∧ t.pc = s.pc ∧
        Frame { dt := True, st := True } { s with soundExpired := t.soundExpired } t
    else hostTick s = step s

/-- R240 and R31: the display query returns the 2048 pixels row-major, pixel `r`, `c` at `r * 64 + c`. -/
def Obligations.DisplayQueryIsRowMajor : Prop :=
  ∀ s : State, (displayQuery s).length = 2048 ∧
    ∀ (r : Fin 32) (c : Fin 64), (displayQuery s).getD (r.val * 64 + c.val) false = s.display.pixel r c

/-! ## Whole-machine rules -/

/-- The construction state meets the invariant. -/
def Obligations.ResetMeetsTheInvariant : Prop := Inv State.reset

/-- Every step keeps the invariant, from every state that meets it. -/
def Obligations.StepKeepsTheInvariant : Prop :=
  ∀ s t : State, Inv s → step s = .next t → Inv t

/-- Every state the machine and its host reach, from any construction, under any ROM and any host schedule,
meets the invariant; in particular `SP` stays at most 16 and memory stays canonical (R27). -/
def Obligations.EveryReachableStateMeetsTheInvariant : Prop :=
  ∀ s : State, Reachable s → Inv s

/-- A running machine that meets the invariant always has a next state: it neither faults nor is refused. -/
def Obligations.RunningMachineAlwaysSteps : Prop :=
  ∀ s : State, Inv s → s.run = .running → ∃ t, step s = .next t

/-- With `SKP_KEY_SOURCE = observed_key` no step reads the 16 key-down states: changing them changes a
step's result in them alone (R32). -/
def Obligations.KeyDownStatesAreNotRead : Prop :=
  ∀ (s t : State) (keys : Vector Bool 16), s.params.skpKeySource = .observedKey → step s = .next t →
    step { s with keyDown := keys } = .next { t with keyDown := keys }

/-- Over all instructions, each part of the state is changed only by the instructions its rule names as
writers: the general registers (R21), `I` (R24), `PC` (R25; `Next` and a skipped error are the driver's own
advance by 2), the stack and `SP` (R26, R27), the timers (R28, R29), the display (R31), the keypad inputs
(R32, R33), `wait` (R34), `run` and `last_error` (R41, by taking an error that R220 gives the instruction) and
memory (R50). `VF`, which has writers of its own (R22), is the next statement's. What taking an error does is
the spec's own decision D13; the draw counter and the mark of the first cycle are the model's (log entries 3
and 4). -/
def Obligations.OnlyNamedWriters : Prop :=
  ∀ (i : Instr) (s t : State), exec i s = .next t →
    (∀ r, r ≠ vf → t.getV r ≠ s.getV r →
      (∃ y kk, i = .ldImm r kk ∨ i = .addImm r kk ∨ i = .ldReg r y ∨ i = .orReg r y ∨ i = .andReg r y ∨
        i = .xorReg r y ∨ i = .addReg r y ∨ i = .sub r y ∨ i = .shr r y ∨ i = .subn r y ∨ i = .shl r y ∨
        i = .rnd r kk ∨ i = .ldVxDt r ∨ i = .ldVxK r) ∨
      ∃ x : Reg, r.toNat ≤ x.toNat ∧ i = .ldVxMem x) ∧
    (t.pc ≠ s.pc → t.pc = s.pc + 2 ∨ i = .ret ∨
      ∃ x y kk nnn, i = .jp nnn ∨ i = .call nnn ∨ i = .jpV0 nnn ∨ i = .seImm x kk ∨ i = .sneImm x kk ∨
        i = .seReg x y ∨ i = .sneReg x y ∨ i = .skp x ∨ i = .sknp x) ∧
    (t.run ≠ s.run ∨ t.lastError ≠ s.lastError →
      (∃ e, TakesError e s t) ∧ (i = .ret ∨ ∃ x y n nnn, i = .sys nnn ∨ i = .call nnn ∨ i = .drw x y n ∨
        i = .ldF x ∨ i = .ldB x ∨ i = .ldMemVx x ∨ i = .ldVxMem x)) ∧
    (t.display ≠ s.display → i = .cls ∨ ∃ x y n, i = .drw x y n) ∧
    (t.mem ≠ s.mem → ∃ x, i = .ldB x ∨ i = .ldMemVx x) ∧
    (t.i ≠ s.i → ∃ x nnn, i = .ldI nnn ∨ i = .addI x ∨ i = .ldF x ∨ i = .ldMemVx x ∨ i = .ldVxMem x) ∧
    (t.stack ≠ s.stack → ∃ nnn, i = .call nnn) ∧
    (t.sp ≠ s.sp → i = .ret ∨ ∃ nnn, i = .call nnn) ∧
    (t.dt ≠ s.dt → ∃ x, i = .ldDtVx x) ∧
    (t.st ≠ s.st → ∃ x, i = .ldStVx x) ∧
    (t.wait ≠ s.wait → ∃ x, i = .ldVxK x) ∧
    (t.draws ≠ s.draws → ∃ x kk, i = .rnd x kk) ∧
    t.keyDown = s.keyDown ∧ t.observedKey = s.observedKey ∧ t.soundExpired = s.soundExpired ∧
    t.params = s.params ∧ t.cycled = s.cycled

/-- R22: an instruction that changes `VF` is a flag instruction, a draw, or has `VF` as its ordinary
destination. -/
def Obligations.VfChangesOnlyAsFlagOrDestination : Prop :=
  ∀ (i : Instr) (s t : State), exec i s = .next t → t.getV vf ≠ s.getV vf →
    (∃ x y, i = .addReg x y ∨ i = .sub x y ∨ i = .shr x y ∨ i = .subn x y ∨ i = .shl x y) ∨
    (∃ x y n, i = .drw x y n) ∨
    (∃ y kk, i = .ldImm vf kk ∨ i = .addImm vf kk ∨ i = .ldReg vf y ∨ i = .orReg vf y ∨
      i = .andReg vf y ∨ i = .xorReg vf y ∨ i = .rnd vf kk ∨ i = .ldVxDt vf ∨ i = .ldVxK vf ∨
      i = .ldVxMem vf)
end

