-- ==== Sys2Proof/Laws/Decode.lean ====
section
/-!
SUPPORT. The fields of a word built from its fields, and a word rebuilt from its fields (30_encoding.md
rules R71 and R73).
-/

namespace Sys2Proof

/-! ### Four nibbles -/

@[simp] theorem opFamily_xyn (f x y n : BitVec 4) : opFamily (f ++ x ++ y ++ n) = f := by
  unfold opFamily
  rw [BitVec.extractLsb'_append_eq_of_le (by decide), BitVec.extractLsb'_append_eq_of_le (by decide),
    BitVec.extractLsb'_append_eq_of_le (by decide)]
  simp

@[simp] theorem opX_xyn (f x y n : BitVec 4) : opX (f ++ x ++ y ++ n) = x := by
  unfold opX
  rw [BitVec.extractLsb'_append_eq_of_le (by decide), BitVec.extractLsb'_append_eq_of_le (by decide),
    BitVec.extractLsb'_append_eq_of_add_le (by decide)]
  simp

@[simp] theorem opY_xyn (f x y n : BitVec 4) : opY (f ++ x ++ y ++ n) = y := by
  unfold opY
  rw [BitVec.extractLsb'_append_eq_of_le (by decide),
    BitVec.extractLsb'_append_eq_of_add_le (by decide)]
  simp

@[simp] theorem opN_xyn (f x y n : BitVec 4) : opN (f ++ x ++ y ++ n) = n := by
  unfold opN
  rw [BitVec.extractLsb'_append_eq_of_add_le (by decide)]
  simp

/-! ### Family, register and byte -/

@[simp] theorem opFamily_xkk (f x : BitVec 4) (kk : Byte) : opFamily (f ++ x ++ kk) = f := by
  unfold opFamily
  rw [BitVec.extractLsb'_append_eq_of_le (by decide), BitVec.extractLsb'_append_eq_of_le (by decide)]
  simp

@[simp] theorem opX_xkk (f x : BitVec 4) (kk : Byte) : opX (f ++ x ++ kk) = x := by
  unfold opX
  rw [BitVec.extractLsb'_append_eq_of_le (by decide),
    BitVec.extractLsb'_append_eq_of_add_le (by decide)]
  simp

@[simp] theorem opKk_xkk (f x : BitVec 4) (kk : Byte) : opKk (f ++ x ++ kk) = kk := by
  unfold opKk
  rw [BitVec.extractLsb'_append_eq_of_add_le (by decide)]
  simp

/-! ### Family and address -/

@[simp] theorem opFamily_nnn (f : BitVec 4) (nnn : Addr) : opFamily (f ++ nnn) = f := by
  unfold opFamily
  rw [BitVec.extractLsb'_append_eq_of_le (by decide)]
  simp

@[simp] theorem opNnn_nnn (f : BitVec 4) (nnn : Addr) : opNnn (f ++ nnn) = nnn := by
  unfold opNnn
  rw [BitVec.extractLsb'_append_eq_of_add_le (by decide)]
  simp

/-- A word of family 0 is a given one exactly if its address field is. -/
theorem family0_eq_iff (nnn a : Addr) : (0x0#4 ++ nnn : Word) = 0x0#4 ++ a ↔ nnn = a := by
  constructor
  · intro h
    simpa using congrArg opNnn h
  · rintro rfl; rfl

/-! ### A word is its fields -/

theorem word_eq_xyn (w : Word) : opFamily w ++ opX w ++ opY w ++ opN w = w := by
  unfold opFamily opX opY opN
  rw [BitVec.extractLsb'_append_extractLsb'_eq_extractLsb' (by decide),
    BitVec.extractLsb'_append_extractLsb'_eq_extractLsb' (by decide),
    BitVec.extractLsb'_append_extractLsb'_eq_extractLsb' (by decide)]
  simp

theorem word_eq_xkk (w : Word) : opFamily w ++ opX w ++ opKk w = w := by
  unfold opFamily opX opKk
  rw [BitVec.extractLsb'_append_extractLsb'_eq_extractLsb' (by decide),
    BitVec.extractLsb'_append_extractLsb'_eq_extractLsb' (by decide)]
  simp

theorem word_eq_nnn (w : Word) : opFamily w ++ opNnn w = w := by
  unfold opFamily opNnn
  rw [BitVec.extractLsb'_append_extractLsb'_eq_extractLsb' (by decide)]
  simp

/-- The sixteen values of a family or a selector nibble. -/
theorem nibble_cases (f : BitVec 4) :
    f = 0x0#4 ∨ f = 0x1#4 ∨ f = 0x2#4 ∨ f = 0x3#4 ∨ f = 0x4#4 ∨ f = 0x5#4 ∨ f = 0x6#4 ∨ f = 0x7#4 ∨
    f = 0x8#4 ∨ f = 0x9#4 ∨ f = 0xA#4 ∨ f = 0xB#4 ∨ f = 0xC#4 ∨ f = 0xD#4 ∨ f = 0xE#4 ∨ f = 0xF#4 := by
  revert f; decide

/-! ### The fields as numbers -/

theorem opFamily_toNat (w : Word) : (opFamily w).toNat = w.toNat / 4096 := by
  have := w.isLt
  simp only [opFamily, BitVec.extractLsb'_toNat, Nat.shiftRight_eq_div_pow]
  omega

theorem opN_toNat (w : Word) : (opN w).toNat = w.toNat % 16 := by
  simp [opN, BitVec.extractLsb'_toNat]

theorem opKk_toNat (w : Word) : (opKk w).toNat = w.toNat % 256 := by
  simp [opKk, BitVec.extractLsb'_toNat]

/-- The two bytes of an opcode in memory order form it again. -/
theorem opcodeOfBytes_bytes (w : Word) :
    opcodeOfBytes (w.extractLsb' 8 8) (w.extractLsb' 0 8) = w := by
  unfold opcodeOfBytes
  rw [BitVec.extractLsb'_append_extractLsb'_eq_extractLsb' (by decide)]
  simp

end Sys2Proof
end

