-- ==== Sys2Proof/Laws/State.lean ====
section
/-!
SUPPORT. What each field update of the state leaves in each field, and reading a general register after
a write: later proofs cite these and unfold no record update.
-/

namespace Sys2Proof.Machine

/-! ### `setMem` -/

@[simp] theorem State.setMem_mem (s : State) (w : List Host.Cell) : (s.setMem w).mem = w := rfl
@[simp] theorem State.setMem_v (s : State) (w : List Host.Cell) : (s.setMem w).v = s.v := rfl
@[simp] theorem State.setMem_i (s : State) (w : List Host.Cell) : (s.setMem w).i = s.i := rfl
@[simp] theorem State.setMem_pc (s : State) (w : List Host.Cell) : (s.setMem w).pc = s.pc := rfl
@[simp] theorem State.setMem_stack (s : State) (w : List Host.Cell) : (s.setMem w).stack = s.stack := rfl
@[simp] theorem State.setMem_sp (s : State) (w : List Host.Cell) : (s.setMem w).sp = s.sp := rfl
@[simp] theorem State.setMem_dt (s : State) (w : List Host.Cell) : (s.setMem w).dt = s.dt := rfl
@[simp] theorem State.setMem_st (s : State) (w : List Host.Cell) : (s.setMem w).st = s.st := rfl
@[simp] theorem State.setMem_display (s : State) (w : List Host.Cell) : (s.setMem w).display = s.display := rfl
@[simp] theorem State.setMem_keyDown (s : State) (w : List Host.Cell) : (s.setMem w).keyDown = s.keyDown := rfl
@[simp] theorem State.setMem_observedKey (s : State) (w : List Host.Cell) : (s.setMem w).observedKey = s.observedKey := rfl
@[simp] theorem State.setMem_wait (s : State) (w : List Host.Cell) : (s.setMem w).wait = s.wait := rfl
@[simp] theorem State.setMem_run (s : State) (w : List Host.Cell) : (s.setMem w).run = s.run := rfl
@[simp] theorem State.setMem_lastError (s : State) (w : List Host.Cell) : (s.setMem w).lastError = s.lastError := rfl
@[simp] theorem State.setMem_soundExpired (s : State) (w : List Host.Cell) : (s.setMem w).soundExpired = s.soundExpired := rfl
@[simp] theorem State.setMem_params (s : State) (w : List Host.Cell) : (s.setMem w).params = s.params := rfl
@[simp] theorem State.setMem_draws (s : State) (w : List Host.Cell) : (s.setMem w).draws = s.draws := rfl
@[simp] theorem State.setMem_cycled (s : State) (w : List Host.Cell) : (s.setMem w).cycled = s.cycled := rfl

/-! ### `setV` -/

@[simp] theorem State.setV_mem (s : State) (w : Vector Byte 16) : (s.setV w).mem = s.mem := rfl
@[simp] theorem State.setV_v (s : State) (w : Vector Byte 16) : (s.setV w).v = w := rfl
@[simp] theorem State.setV_i (s : State) (w : Vector Byte 16) : (s.setV w).i = s.i := rfl
@[simp] theorem State.setV_pc (s : State) (w : Vector Byte 16) : (s.setV w).pc = s.pc := rfl
@[simp] theorem State.setV_stack (s : State) (w : Vector Byte 16) : (s.setV w).stack = s.stack := rfl
@[simp] theorem State.setV_sp (s : State) (w : Vector Byte 16) : (s.setV w).sp = s.sp := rfl
@[simp] theorem State.setV_dt (s : State) (w : Vector Byte 16) : (s.setV w).dt = s.dt := rfl
@[simp] theorem State.setV_st (s : State) (w : Vector Byte 16) : (s.setV w).st = s.st := rfl
@[simp] theorem State.setV_display (s : State) (w : Vector Byte 16) : (s.setV w).display = s.display := rfl
@[simp] theorem State.setV_keyDown (s : State) (w : Vector Byte 16) : (s.setV w).keyDown = s.keyDown := rfl
@[simp] theorem State.setV_observedKey (s : State) (w : Vector Byte 16) : (s.setV w).observedKey = s.observedKey := rfl
@[simp] theorem State.setV_wait (s : State) (w : Vector Byte 16) : (s.setV w).wait = s.wait := rfl
@[simp] theorem State.setV_run (s : State) (w : Vector Byte 16) : (s.setV w).run = s.run := rfl
@[simp] theorem State.setV_lastError (s : State) (w : Vector Byte 16) : (s.setV w).lastError = s.lastError := rfl
@[simp] theorem State.setV_soundExpired (s : State) (w : Vector Byte 16) : (s.setV w).soundExpired = s.soundExpired := rfl
@[simp] theorem State.setV_params (s : State) (w : Vector Byte 16) : (s.setV w).params = s.params := rfl
@[simp] theorem State.setV_draws (s : State) (w : Vector Byte 16) : (s.setV w).draws = s.draws := rfl
@[simp] theorem State.setV_cycled (s : State) (w : Vector Byte 16) : (s.setV w).cycled = s.cycled := rfl

/-! ### `setI` -/

@[simp] theorem State.setI_mem (s : State) (w : Word) : (s.setI w).mem = s.mem := rfl
@[simp] theorem State.setI_v (s : State) (w : Word) : (s.setI w).v = s.v := rfl
@[simp] theorem State.setI_i (s : State) (w : Word) : (s.setI w).i = w := rfl
@[simp] theorem State.setI_pc (s : State) (w : Word) : (s.setI w).pc = s.pc := rfl
@[simp] theorem State.setI_stack (s : State) (w : Word) : (s.setI w).stack = s.stack := rfl
@[simp] theorem State.setI_sp (s : State) (w : Word) : (s.setI w).sp = s.sp := rfl
@[simp] theorem State.setI_dt (s : State) (w : Word) : (s.setI w).dt = s.dt := rfl
@[simp] theorem State.setI_st (s : State) (w : Word) : (s.setI w).st = s.st := rfl
@[simp] theorem State.setI_display (s : State) (w : Word) : (s.setI w).display = s.display := rfl
@[simp] theorem State.setI_keyDown (s : State) (w : Word) : (s.setI w).keyDown = s.keyDown := rfl
@[simp] theorem State.setI_observedKey (s : State) (w : Word) : (s.setI w).observedKey = s.observedKey := rfl
@[simp] theorem State.setI_wait (s : State) (w : Word) : (s.setI w).wait = s.wait := rfl
@[simp] theorem State.setI_run (s : State) (w : Word) : (s.setI w).run = s.run := rfl
@[simp] theorem State.setI_lastError (s : State) (w : Word) : (s.setI w).lastError = s.lastError := rfl
@[simp] theorem State.setI_soundExpired (s : State) (w : Word) : (s.setI w).soundExpired = s.soundExpired := rfl
@[simp] theorem State.setI_params (s : State) (w : Word) : (s.setI w).params = s.params := rfl
@[simp] theorem State.setI_draws (s : State) (w : Word) : (s.setI w).draws = s.draws := rfl
@[simp] theorem State.setI_cycled (s : State) (w : Word) : (s.setI w).cycled = s.cycled := rfl

/-! ### `setPc` -/

@[simp] theorem State.setPc_mem (s : State) (w : Word) : (s.setPc w).mem = s.mem := rfl
@[simp] theorem State.setPc_v (s : State) (w : Word) : (s.setPc w).v = s.v := rfl
@[simp] theorem State.setPc_i (s : State) (w : Word) : (s.setPc w).i = s.i := rfl
@[simp] theorem State.setPc_pc (s : State) (w : Word) : (s.setPc w).pc = w := rfl
@[simp] theorem State.setPc_stack (s : State) (w : Word) : (s.setPc w).stack = s.stack := rfl
@[simp] theorem State.setPc_sp (s : State) (w : Word) : (s.setPc w).sp = s.sp := rfl
@[simp] theorem State.setPc_dt (s : State) (w : Word) : (s.setPc w).dt = s.dt := rfl
@[simp] theorem State.setPc_st (s : State) (w : Word) : (s.setPc w).st = s.st := rfl
@[simp] theorem State.setPc_display (s : State) (w : Word) : (s.setPc w).display = s.display := rfl
@[simp] theorem State.setPc_keyDown (s : State) (w : Word) : (s.setPc w).keyDown = s.keyDown := rfl
@[simp] theorem State.setPc_observedKey (s : State) (w : Word) : (s.setPc w).observedKey = s.observedKey := rfl
@[simp] theorem State.setPc_wait (s : State) (w : Word) : (s.setPc w).wait = s.wait := rfl
@[simp] theorem State.setPc_run (s : State) (w : Word) : (s.setPc w).run = s.run := rfl
@[simp] theorem State.setPc_lastError (s : State) (w : Word) : (s.setPc w).lastError = s.lastError := rfl
@[simp] theorem State.setPc_soundExpired (s : State) (w : Word) : (s.setPc w).soundExpired = s.soundExpired := rfl
@[simp] theorem State.setPc_params (s : State) (w : Word) : (s.setPc w).params = s.params := rfl
@[simp] theorem State.setPc_draws (s : State) (w : Word) : (s.setPc w).draws = s.draws := rfl
@[simp] theorem State.setPc_cycled (s : State) (w : Word) : (s.setPc w).cycled = s.cycled := rfl

/-! ### `setStack` -/

@[simp] theorem State.setStack_mem (s : State) (w : Vector Word 16) : (s.setStack w).mem = s.mem := rfl
@[simp] theorem State.setStack_v (s : State) (w : Vector Word 16) : (s.setStack w).v = s.v := rfl
@[simp] theorem State.setStack_i (s : State) (w : Vector Word 16) : (s.setStack w).i = s.i := rfl
@[simp] theorem State.setStack_pc (s : State) (w : Vector Word 16) : (s.setStack w).pc = s.pc := rfl
@[simp] theorem State.setStack_stack (s : State) (w : Vector Word 16) : (s.setStack w).stack = w := rfl
@[simp] theorem State.setStack_sp (s : State) (w : Vector Word 16) : (s.setStack w).sp = s.sp := rfl
@[simp] theorem State.setStack_dt (s : State) (w : Vector Word 16) : (s.setStack w).dt = s.dt := rfl
@[simp] theorem State.setStack_st (s : State) (w : Vector Word 16) : (s.setStack w).st = s.st := rfl
@[simp] theorem State.setStack_display (s : State) (w : Vector Word 16) : (s.setStack w).display = s.display := rfl
@[simp] theorem State.setStack_keyDown (s : State) (w : Vector Word 16) : (s.setStack w).keyDown = s.keyDown := rfl
@[simp] theorem State.setStack_observedKey (s : State) (w : Vector Word 16) : (s.setStack w).observedKey = s.observedKey := rfl
@[simp] theorem State.setStack_wait (s : State) (w : Vector Word 16) : (s.setStack w).wait = s.wait := rfl
@[simp] theorem State.setStack_run (s : State) (w : Vector Word 16) : (s.setStack w).run = s.run := rfl
@[simp] theorem State.setStack_lastError (s : State) (w : Vector Word 16) : (s.setStack w).lastError = s.lastError := rfl
@[simp] theorem State.setStack_soundExpired (s : State) (w : Vector Word 16) : (s.setStack w).soundExpired = s.soundExpired := rfl
@[simp] theorem State.setStack_params (s : State) (w : Vector Word 16) : (s.setStack w).params = s.params := rfl
@[simp] theorem State.setStack_draws (s : State) (w : Vector Word 16) : (s.setStack w).draws = s.draws := rfl
@[simp] theorem State.setStack_cycled (s : State) (w : Vector Word 16) : (s.setStack w).cycled = s.cycled := rfl

/-! ### `setSp` -/

@[simp] theorem State.setSp_mem (s : State) (w : Byte) : (s.setSp w).mem = s.mem := rfl
@[simp] theorem State.setSp_v (s : State) (w : Byte) : (s.setSp w).v = s.v := rfl
@[simp] theorem State.setSp_i (s : State) (w : Byte) : (s.setSp w).i = s.i := rfl
@[simp] theorem State.setSp_pc (s : State) (w : Byte) : (s.setSp w).pc = s.pc := rfl
@[simp] theorem State.setSp_stack (s : State) (w : Byte) : (s.setSp w).stack = s.stack := rfl
@[simp] theorem State.setSp_sp (s : State) (w : Byte) : (s.setSp w).sp = w := rfl
@[simp] theorem State.setSp_dt (s : State) (w : Byte) : (s.setSp w).dt = s.dt := rfl
@[simp] theorem State.setSp_st (s : State) (w : Byte) : (s.setSp w).st = s.st := rfl
@[simp] theorem State.setSp_display (s : State) (w : Byte) : (s.setSp w).display = s.display := rfl
@[simp] theorem State.setSp_keyDown (s : State) (w : Byte) : (s.setSp w).keyDown = s.keyDown := rfl
@[simp] theorem State.setSp_observedKey (s : State) (w : Byte) : (s.setSp w).observedKey = s.observedKey := rfl
@[simp] theorem State.setSp_wait (s : State) (w : Byte) : (s.setSp w).wait = s.wait := rfl
@[simp] theorem State.setSp_run (s : State) (w : Byte) : (s.setSp w).run = s.run := rfl
@[simp] theorem State.setSp_lastError (s : State) (w : Byte) : (s.setSp w).lastError = s.lastError := rfl
@[simp] theorem State.setSp_soundExpired (s : State) (w : Byte) : (s.setSp w).soundExpired = s.soundExpired := rfl
@[simp] theorem State.setSp_params (s : State) (w : Byte) : (s.setSp w).params = s.params := rfl
@[simp] theorem State.setSp_draws (s : State) (w : Byte) : (s.setSp w).draws = s.draws := rfl
@[simp] theorem State.setSp_cycled (s : State) (w : Byte) : (s.setSp w).cycled = s.cycled := rfl

/-! ### `setDt` -/

@[simp] theorem State.setDt_mem (s : State) (w : Byte) : (s.setDt w).mem = s.mem := rfl
@[simp] theorem State.setDt_v (s : State) (w : Byte) : (s.setDt w).v = s.v := rfl
@[simp] theorem State.setDt_i (s : State) (w : Byte) : (s.setDt w).i = s.i := rfl
@[simp] theorem State.setDt_pc (s : State) (w : Byte) : (s.setDt w).pc = s.pc := rfl
@[simp] theorem State.setDt_stack (s : State) (w : Byte) : (s.setDt w).stack = s.stack := rfl
@[simp] theorem State.setDt_sp (s : State) (w : Byte) : (s.setDt w).sp = s.sp := rfl
@[simp] theorem State.setDt_dt (s : State) (w : Byte) : (s.setDt w).dt = w := rfl
@[simp] theorem State.setDt_st (s : State) (w : Byte) : (s.setDt w).st = s.st := rfl
@[simp] theorem State.setDt_display (s : State) (w : Byte) : (s.setDt w).display = s.display := rfl
@[simp] theorem State.setDt_keyDown (s : State) (w : Byte) : (s.setDt w).keyDown = s.keyDown := rfl
@[simp] theorem State.setDt_observedKey (s : State) (w : Byte) : (s.setDt w).observedKey = s.observedKey := rfl
@[simp] theorem State.setDt_wait (s : State) (w : Byte) : (s.setDt w).wait = s.wait := rfl
@[simp] theorem State.setDt_run (s : State) (w : Byte) : (s.setDt w).run = s.run := rfl
@[simp] theorem State.setDt_lastError (s : State) (w : Byte) : (s.setDt w).lastError = s.lastError := rfl
@[simp] theorem State.setDt_soundExpired (s : State) (w : Byte) : (s.setDt w).soundExpired = s.soundExpired := rfl
@[simp] theorem State.setDt_params (s : State) (w : Byte) : (s.setDt w).params = s.params := rfl
@[simp] theorem State.setDt_draws (s : State) (w : Byte) : (s.setDt w).draws = s.draws := rfl
@[simp] theorem State.setDt_cycled (s : State) (w : Byte) : (s.setDt w).cycled = s.cycled := rfl

/-! ### `setSt` -/

@[simp] theorem State.setSt_mem (s : State) (w : Byte) : (s.setSt w).mem = s.mem := rfl
@[simp] theorem State.setSt_v (s : State) (w : Byte) : (s.setSt w).v = s.v := rfl
@[simp] theorem State.setSt_i (s : State) (w : Byte) : (s.setSt w).i = s.i := rfl
@[simp] theorem State.setSt_pc (s : State) (w : Byte) : (s.setSt w).pc = s.pc := rfl
@[simp] theorem State.setSt_stack (s : State) (w : Byte) : (s.setSt w).stack = s.stack := rfl
@[simp] theorem State.setSt_sp (s : State) (w : Byte) : (s.setSt w).sp = s.sp := rfl
@[simp] theorem State.setSt_dt (s : State) (w : Byte) : (s.setSt w).dt = s.dt := rfl
@[simp] theorem State.setSt_st (s : State) (w : Byte) : (s.setSt w).st = w := rfl
@[simp] theorem State.setSt_display (s : State) (w : Byte) : (s.setSt w).display = s.display := rfl
@[simp] theorem State.setSt_keyDown (s : State) (w : Byte) : (s.setSt w).keyDown = s.keyDown := rfl
@[simp] theorem State.setSt_observedKey (s : State) (w : Byte) : (s.setSt w).observedKey = s.observedKey := rfl
@[simp] theorem State.setSt_wait (s : State) (w : Byte) : (s.setSt w).wait = s.wait := rfl
@[simp] theorem State.setSt_run (s : State) (w : Byte) : (s.setSt w).run = s.run := rfl
@[simp] theorem State.setSt_lastError (s : State) (w : Byte) : (s.setSt w).lastError = s.lastError := rfl
@[simp] theorem State.setSt_soundExpired (s : State) (w : Byte) : (s.setSt w).soundExpired = s.soundExpired := rfl
@[simp] theorem State.setSt_params (s : State) (w : Byte) : (s.setSt w).params = s.params := rfl
@[simp] theorem State.setSt_draws (s : State) (w : Byte) : (s.setSt w).draws = s.draws := rfl
@[simp] theorem State.setSt_cycled (s : State) (w : Byte) : (s.setSt w).cycled = s.cycled := rfl

/-! ### `setDisplay` -/

@[simp] theorem State.setDisplay_mem (s : State) (w : Display) : (s.setDisplay w).mem = s.mem := rfl
@[simp] theorem State.setDisplay_v (s : State) (w : Display) : (s.setDisplay w).v = s.v := rfl
@[simp] theorem State.setDisplay_i (s : State) (w : Display) : (s.setDisplay w).i = s.i := rfl
@[simp] theorem State.setDisplay_pc (s : State) (w : Display) : (s.setDisplay w).pc = s.pc := rfl
@[simp] theorem State.setDisplay_stack (s : State) (w : Display) : (s.setDisplay w).stack = s.stack := rfl
@[simp] theorem State.setDisplay_sp (s : State) (w : Display) : (s.setDisplay w).sp = s.sp := rfl
@[simp] theorem State.setDisplay_dt (s : State) (w : Display) : (s.setDisplay w).dt = s.dt := rfl
@[simp] theorem State.setDisplay_st (s : State) (w : Display) : (s.setDisplay w).st = s.st := rfl
@[simp] theorem State.setDisplay_display (s : State) (w : Display) : (s.setDisplay w).display = w := rfl
@[simp] theorem State.setDisplay_keyDown (s : State) (w : Display) : (s.setDisplay w).keyDown = s.keyDown := rfl
@[simp] theorem State.setDisplay_observedKey (s : State) (w : Display) : (s.setDisplay w).observedKey = s.observedKey := rfl
@[simp] theorem State.setDisplay_wait (s : State) (w : Display) : (s.setDisplay w).wait = s.wait := rfl
@[simp] theorem State.setDisplay_run (s : State) (w : Display) : (s.setDisplay w).run = s.run := rfl
@[simp] theorem State.setDisplay_lastError (s : State) (w : Display) : (s.setDisplay w).lastError = s.lastError := rfl
@[simp] theorem State.setDisplay_soundExpired (s : State) (w : Display) : (s.setDisplay w).soundExpired = s.soundExpired := rfl
@[simp] theorem State.setDisplay_params (s : State) (w : Display) : (s.setDisplay w).params = s.params := rfl
@[simp] theorem State.setDisplay_draws (s : State) (w : Display) : (s.setDisplay w).draws = s.draws := rfl
@[simp] theorem State.setDisplay_cycled (s : State) (w : Display) : (s.setDisplay w).cycled = s.cycled := rfl

/-! ### `setKeyDown` -/

@[simp] theorem State.setKeyDown_mem (s : State) (w : Vector Bool 16) : (s.setKeyDown w).mem = s.mem := rfl
@[simp] theorem State.setKeyDown_v (s : State) (w : Vector Bool 16) : (s.setKeyDown w).v = s.v := rfl
@[simp] theorem State.setKeyDown_i (s : State) (w : Vector Bool 16) : (s.setKeyDown w).i = s.i := rfl
@[simp] theorem State.setKeyDown_pc (s : State) (w : Vector Bool 16) : (s.setKeyDown w).pc = s.pc := rfl
@[simp] theorem State.setKeyDown_stack (s : State) (w : Vector Bool 16) : (s.setKeyDown w).stack = s.stack := rfl
@[simp] theorem State.setKeyDown_sp (s : State) (w : Vector Bool 16) : (s.setKeyDown w).sp = s.sp := rfl
@[simp] theorem State.setKeyDown_dt (s : State) (w : Vector Bool 16) : (s.setKeyDown w).dt = s.dt := rfl
@[simp] theorem State.setKeyDown_st (s : State) (w : Vector Bool 16) : (s.setKeyDown w).st = s.st := rfl
@[simp] theorem State.setKeyDown_display (s : State) (w : Vector Bool 16) : (s.setKeyDown w).display = s.display := rfl
@[simp] theorem State.setKeyDown_keyDown (s : State) (w : Vector Bool 16) : (s.setKeyDown w).keyDown = w := rfl
@[simp] theorem State.setKeyDown_observedKey (s : State) (w : Vector Bool 16) : (s.setKeyDown w).observedKey = s.observedKey := rfl
@[simp] theorem State.setKeyDown_wait (s : State) (w : Vector Bool 16) : (s.setKeyDown w).wait = s.wait := rfl
@[simp] theorem State.setKeyDown_run (s : State) (w : Vector Bool 16) : (s.setKeyDown w).run = s.run := rfl
@[simp] theorem State.setKeyDown_lastError (s : State) (w : Vector Bool 16) : (s.setKeyDown w).lastError = s.lastError := rfl
@[simp] theorem State.setKeyDown_soundExpired (s : State) (w : Vector Bool 16) : (s.setKeyDown w).soundExpired = s.soundExpired := rfl
@[simp] theorem State.setKeyDown_params (s : State) (w : Vector Bool 16) : (s.setKeyDown w).params = s.params := rfl
@[simp] theorem State.setKeyDown_draws (s : State) (w : Vector Bool 16) : (s.setKeyDown w).draws = s.draws := rfl
@[simp] theorem State.setKeyDown_cycled (s : State) (w : Vector Bool 16) : (s.setKeyDown w).cycled = s.cycled := rfl

/-! ### `setObservedKey` -/

@[simp] theorem State.setObservedKey_mem (s : State) (w : Option Key) : (s.setObservedKey w).mem = s.mem := rfl
@[simp] theorem State.setObservedKey_v (s : State) (w : Option Key) : (s.setObservedKey w).v = s.v := rfl
@[simp] theorem State.setObservedKey_i (s : State) (w : Option Key) : (s.setObservedKey w).i = s.i := rfl
@[simp] theorem State.setObservedKey_pc (s : State) (w : Option Key) : (s.setObservedKey w).pc = s.pc := rfl
@[simp] theorem State.setObservedKey_stack (s : State) (w : Option Key) : (s.setObservedKey w).stack = s.stack := rfl
@[simp] theorem State.setObservedKey_sp (s : State) (w : Option Key) : (s.setObservedKey w).sp = s.sp := rfl
@[simp] theorem State.setObservedKey_dt (s : State) (w : Option Key) : (s.setObservedKey w).dt = s.dt := rfl
@[simp] theorem State.setObservedKey_st (s : State) (w : Option Key) : (s.setObservedKey w).st = s.st := rfl
@[simp] theorem State.setObservedKey_display (s : State) (w : Option Key) : (s.setObservedKey w).display = s.display := rfl
@[simp] theorem State.setObservedKey_keyDown (s : State) (w : Option Key) : (s.setObservedKey w).keyDown = s.keyDown := rfl
@[simp] theorem State.setObservedKey_observedKey (s : State) (w : Option Key) : (s.setObservedKey w).observedKey = w := rfl
@[simp] theorem State.setObservedKey_wait (s : State) (w : Option Key) : (s.setObservedKey w).wait = s.wait := rfl
@[simp] theorem State.setObservedKey_run (s : State) (w : Option Key) : (s.setObservedKey w).run = s.run := rfl
@[simp] theorem State.setObservedKey_lastError (s : State) (w : Option Key) : (s.setObservedKey w).lastError = s.lastError := rfl
@[simp] theorem State.setObservedKey_soundExpired (s : State) (w : Option Key) : (s.setObservedKey w).soundExpired = s.soundExpired := rfl
@[simp] theorem State.setObservedKey_params (s : State) (w : Option Key) : (s.setObservedKey w).params = s.params := rfl
@[simp] theorem State.setObservedKey_draws (s : State) (w : Option Key) : (s.setObservedKey w).draws = s.draws := rfl
@[simp] theorem State.setObservedKey_cycled (s : State) (w : Option Key) : (s.setObservedKey w).cycled = s.cycled := rfl

/-! ### `setWait` -/

@[simp] theorem State.setWait_mem (s : State) (w : Option Reg) : (s.setWait w).mem = s.mem := rfl
@[simp] theorem State.setWait_v (s : State) (w : Option Reg) : (s.setWait w).v = s.v := rfl
@[simp] theorem State.setWait_i (s : State) (w : Option Reg) : (s.setWait w).i = s.i := rfl
@[simp] theorem State.setWait_pc (s : State) (w : Option Reg) : (s.setWait w).pc = s.pc := rfl
@[simp] theorem State.setWait_stack (s : State) (w : Option Reg) : (s.setWait w).stack = s.stack := rfl
@[simp] theorem State.setWait_sp (s : State) (w : Option Reg) : (s.setWait w).sp = s.sp := rfl
@[simp] theorem State.setWait_dt (s : State) (w : Option Reg) : (s.setWait w).dt = s.dt := rfl
@[simp] theorem State.setWait_st (s : State) (w : Option Reg) : (s.setWait w).st = s.st := rfl
@[simp] theorem State.setWait_display (s : State) (w : Option Reg) : (s.setWait w).display = s.display := rfl
@[simp] theorem State.setWait_keyDown (s : State) (w : Option Reg) : (s.setWait w).keyDown = s.keyDown := rfl
@[simp] theorem State.setWait_observedKey (s : State) (w : Option Reg) : (s.setWait w).observedKey = s.observedKey := rfl
@[simp] theorem State.setWait_wait (s : State) (w : Option Reg) : (s.setWait w).wait = w := rfl
@[simp] theorem State.setWait_run (s : State) (w : Option Reg) : (s.setWait w).run = s.run := rfl
@[simp] theorem State.setWait_lastError (s : State) (w : Option Reg) : (s.setWait w).lastError = s.lastError := rfl
@[simp] theorem State.setWait_soundExpired (s : State) (w : Option Reg) : (s.setWait w).soundExpired = s.soundExpired := rfl
@[simp] theorem State.setWait_params (s : State) (w : Option Reg) : (s.setWait w).params = s.params := rfl
@[simp] theorem State.setWait_draws (s : State) (w : Option Reg) : (s.setWait w).draws = s.draws := rfl
@[simp] theorem State.setWait_cycled (s : State) (w : Option Reg) : (s.setWait w).cycled = s.cycled := rfl

/-! ### `setRun` -/

@[simp] theorem State.setRun_mem (s : State) (w : Run) : (s.setRun w).mem = s.mem := rfl
@[simp] theorem State.setRun_v (s : State) (w : Run) : (s.setRun w).v = s.v := rfl
@[simp] theorem State.setRun_i (s : State) (w : Run) : (s.setRun w).i = s.i := rfl
@[simp] theorem State.setRun_pc (s : State) (w : Run) : (s.setRun w).pc = s.pc := rfl
@[simp] theorem State.setRun_stack (s : State) (w : Run) : (s.setRun w).stack = s.stack := rfl
@[simp] theorem State.setRun_sp (s : State) (w : Run) : (s.setRun w).sp = s.sp := rfl
@[simp] theorem State.setRun_dt (s : State) (w : Run) : (s.setRun w).dt = s.dt := rfl
@[simp] theorem State.setRun_st (s : State) (w : Run) : (s.setRun w).st = s.st := rfl
@[simp] theorem State.setRun_display (s : State) (w : Run) : (s.setRun w).display = s.display := rfl
@[simp] theorem State.setRun_keyDown (s : State) (w : Run) : (s.setRun w).keyDown = s.keyDown := rfl
@[simp] theorem State.setRun_observedKey (s : State) (w : Run) : (s.setRun w).observedKey = s.observedKey := rfl
@[simp] theorem State.setRun_wait (s : State) (w : Run) : (s.setRun w).wait = s.wait := rfl
@[simp] theorem State.setRun_run (s : State) (w : Run) : (s.setRun w).run = w := rfl
@[simp] theorem State.setRun_lastError (s : State) (w : Run) : (s.setRun w).lastError = s.lastError := rfl
@[simp] theorem State.setRun_soundExpired (s : State) (w : Run) : (s.setRun w).soundExpired = s.soundExpired := rfl
@[simp] theorem State.setRun_params (s : State) (w : Run) : (s.setRun w).params = s.params := rfl
@[simp] theorem State.setRun_draws (s : State) (w : Run) : (s.setRun w).draws = s.draws := rfl
@[simp] theorem State.setRun_cycled (s : State) (w : Run) : (s.setRun w).cycled = s.cycled := rfl

/-! ### `setLastError` -/

@[simp] theorem State.setLastError_mem (s : State) (w : Option Error) : (s.setLastError w).mem = s.mem := rfl
@[simp] theorem State.setLastError_v (s : State) (w : Option Error) : (s.setLastError w).v = s.v := rfl
@[simp] theorem State.setLastError_i (s : State) (w : Option Error) : (s.setLastError w).i = s.i := rfl
@[simp] theorem State.setLastError_pc (s : State) (w : Option Error) : (s.setLastError w).pc = s.pc := rfl
@[simp] theorem State.setLastError_stack (s : State) (w : Option Error) : (s.setLastError w).stack = s.stack := rfl
@[simp] theorem State.setLastError_sp (s : State) (w : Option Error) : (s.setLastError w).sp = s.sp := rfl
@[simp] theorem State.setLastError_dt (s : State) (w : Option Error) : (s.setLastError w).dt = s.dt := rfl
@[simp] theorem State.setLastError_st (s : State) (w : Option Error) : (s.setLastError w).st = s.st := rfl
@[simp] theorem State.setLastError_display (s : State) (w : Option Error) : (s.setLastError w).display = s.display := rfl
@[simp] theorem State.setLastError_keyDown (s : State) (w : Option Error) : (s.setLastError w).keyDown = s.keyDown := rfl
@[simp] theorem State.setLastError_observedKey (s : State) (w : Option Error) : (s.setLastError w).observedKey = s.observedKey := rfl
@[simp] theorem State.setLastError_wait (s : State) (w : Option Error) : (s.setLastError w).wait = s.wait := rfl
@[simp] theorem State.setLastError_run (s : State) (w : Option Error) : (s.setLastError w).run = s.run := rfl
@[simp] theorem State.setLastError_lastError (s : State) (w : Option Error) : (s.setLastError w).lastError = w := rfl
@[simp] theorem State.setLastError_soundExpired (s : State) (w : Option Error) : (s.setLastError w).soundExpired = s.soundExpired := rfl
@[simp] theorem State.setLastError_params (s : State) (w : Option Error) : (s.setLastError w).params = s.params := rfl
@[simp] theorem State.setLastError_draws (s : State) (w : Option Error) : (s.setLastError w).draws = s.draws := rfl
@[simp] theorem State.setLastError_cycled (s : State) (w : Option Error) : (s.setLastError w).cycled = s.cycled := rfl

/-! ### `setSoundExpired` -/

@[simp] theorem State.setSoundExpired_mem (s : State) (w : Bool) : (s.setSoundExpired w).mem = s.mem := rfl
@[simp] theorem State.setSoundExpired_v (s : State) (w : Bool) : (s.setSoundExpired w).v = s.v := rfl
@[simp] theorem State.setSoundExpired_i (s : State) (w : Bool) : (s.setSoundExpired w).i = s.i := rfl
@[simp] theorem State.setSoundExpired_pc (s : State) (w : Bool) : (s.setSoundExpired w).pc = s.pc := rfl
@[simp] theorem State.setSoundExpired_stack (s : State) (w : Bool) : (s.setSoundExpired w).stack = s.stack := rfl
@[simp] theorem State.setSoundExpired_sp (s : State) (w : Bool) : (s.setSoundExpired w).sp = s.sp := rfl
@[simp] theorem State.setSoundExpired_dt (s : State) (w : Bool) : (s.setSoundExpired w).dt = s.dt := rfl
@[simp] theorem State.setSoundExpired_st (s : State) (w : Bool) : (s.setSoundExpired w).st = s.st := rfl
@[simp] theorem State.setSoundExpired_display (s : State) (w : Bool) : (s.setSoundExpired w).display = s.display := rfl
@[simp] theorem State.setSoundExpired_keyDown (s : State) (w : Bool) : (s.setSoundExpired w).keyDown = s.keyDown := rfl
@[simp] theorem State.setSoundExpired_observedKey (s : State) (w : Bool) : (s.setSoundExpired w).observedKey = s.observedKey := rfl
@[simp] theorem State.setSoundExpired_wait (s : State) (w : Bool) : (s.setSoundExpired w).wait = s.wait := rfl
@[simp] theorem State.setSoundExpired_run (s : State) (w : Bool) : (s.setSoundExpired w).run = s.run := rfl
@[simp] theorem State.setSoundExpired_lastError (s : State) (w : Bool) : (s.setSoundExpired w).lastError = s.lastError := rfl
@[simp] theorem State.setSoundExpired_soundExpired (s : State) (w : Bool) : (s.setSoundExpired w).soundExpired = w := rfl
@[simp] theorem State.setSoundExpired_params (s : State) (w : Bool) : (s.setSoundExpired w).params = s.params := rfl
@[simp] theorem State.setSoundExpired_draws (s : State) (w : Bool) : (s.setSoundExpired w).draws = s.draws := rfl
@[simp] theorem State.setSoundExpired_cycled (s : State) (w : Bool) : (s.setSoundExpired w).cycled = s.cycled := rfl

/-! ### `setDraws` -/

@[simp] theorem State.setDraws_mem (s : State) (w : Nat) : (s.setDraws w).mem = s.mem := rfl
@[simp] theorem State.setDraws_v (s : State) (w : Nat) : (s.setDraws w).v = s.v := rfl
@[simp] theorem State.setDraws_i (s : State) (w : Nat) : (s.setDraws w).i = s.i := rfl
@[simp] theorem State.setDraws_pc (s : State) (w : Nat) : (s.setDraws w).pc = s.pc := rfl
@[simp] theorem State.setDraws_stack (s : State) (w : Nat) : (s.setDraws w).stack = s.stack := rfl
@[simp] theorem State.setDraws_sp (s : State) (w : Nat) : (s.setDraws w).sp = s.sp := rfl
@[simp] theorem State.setDraws_dt (s : State) (w : Nat) : (s.setDraws w).dt = s.dt := rfl
@[simp] theorem State.setDraws_st (s : State) (w : Nat) : (s.setDraws w).st = s.st := rfl
@[simp] theorem State.setDraws_display (s : State) (w : Nat) : (s.setDraws w).display = s.display := rfl
@[simp] theorem State.setDraws_keyDown (s : State) (w : Nat) : (s.setDraws w).keyDown = s.keyDown := rfl
@[simp] theorem State.setDraws_observedKey (s : State) (w : Nat) : (s.setDraws w).observedKey = s.observedKey := rfl
@[simp] theorem State.setDraws_wait (s : State) (w : Nat) : (s.setDraws w).wait = s.wait := rfl
@[simp] theorem State.setDraws_run (s : State) (w : Nat) : (s.setDraws w).run = s.run := rfl
@[simp] theorem State.setDraws_lastError (s : State) (w : Nat) : (s.setDraws w).lastError = s.lastError := rfl
@[simp] theorem State.setDraws_soundExpired (s : State) (w : Nat) : (s.setDraws w).soundExpired = s.soundExpired := rfl
@[simp] theorem State.setDraws_params (s : State) (w : Nat) : (s.setDraws w).params = s.params := rfl
@[simp] theorem State.setDraws_draws (s : State) (w : Nat) : (s.setDraws w).draws = w := rfl
@[simp] theorem State.setDraws_cycled (s : State) (w : Nat) : (s.setDraws w).cycled = s.cycled := rfl

/-! ### `setCycled` -/

@[simp] theorem State.setCycled_mem (s : State) (w : Bool) : (s.setCycled w).mem = s.mem := rfl
@[simp] theorem State.setCycled_v (s : State) (w : Bool) : (s.setCycled w).v = s.v := rfl
@[simp] theorem State.setCycled_i (s : State) (w : Bool) : (s.setCycled w).i = s.i := rfl
@[simp] theorem State.setCycled_pc (s : State) (w : Bool) : (s.setCycled w).pc = s.pc := rfl
@[simp] theorem State.setCycled_stack (s : State) (w : Bool) : (s.setCycled w).stack = s.stack := rfl
@[simp] theorem State.setCycled_sp (s : State) (w : Bool) : (s.setCycled w).sp = s.sp := rfl
@[simp] theorem State.setCycled_dt (s : State) (w : Bool) : (s.setCycled w).dt = s.dt := rfl
@[simp] theorem State.setCycled_st (s : State) (w : Bool) : (s.setCycled w).st = s.st := rfl
@[simp] theorem State.setCycled_display (s : State) (w : Bool) : (s.setCycled w).display = s.display := rfl
@[simp] theorem State.setCycled_keyDown (s : State) (w : Bool) : (s.setCycled w).keyDown = s.keyDown := rfl
@[simp] theorem State.setCycled_observedKey (s : State) (w : Bool) : (s.setCycled w).observedKey = s.observedKey := rfl
@[simp] theorem State.setCycled_wait (s : State) (w : Bool) : (s.setCycled w).wait = s.wait := rfl
@[simp] theorem State.setCycled_run (s : State) (w : Bool) : (s.setCycled w).run = s.run := rfl
@[simp] theorem State.setCycled_lastError (s : State) (w : Bool) : (s.setCycled w).lastError = s.lastError := rfl
@[simp] theorem State.setCycled_soundExpired (s : State) (w : Bool) : (s.setCycled w).soundExpired = s.soundExpired := rfl
@[simp] theorem State.setCycled_params (s : State) (w : Bool) : (s.setCycled w).params = s.params := rfl
@[simp] theorem State.setCycled_draws (s : State) (w : Bool) : (s.setCycled w).draws = s.draws := rfl
@[simp] theorem State.setCycled_cycled (s : State) (w : Bool) : (s.setCycled w).cycled = w := rfl
/-! ### General registers -/

@[simp] theorem State.putV_v (s : State) (x : Reg) (b : Byte) :
    (s.putV x b).v = s.v.set x.toNat b := rfl

@[simp] theorem State.putV_mem (s : State) (x : Reg) (b : Byte) : (s.putV x b).mem = s.mem := rfl
@[simp] theorem State.putV_i (s : State) (x : Reg) (b : Byte) : (s.putV x b).i = s.i := rfl
@[simp] theorem State.putV_pc (s : State) (x : Reg) (b : Byte) : (s.putV x b).pc = s.pc := rfl
@[simp] theorem State.putV_stack (s : State) (x : Reg) (b : Byte) : (s.putV x b).stack = s.stack := rfl
@[simp] theorem State.putV_sp (s : State) (x : Reg) (b : Byte) : (s.putV x b).sp = s.sp := rfl
@[simp] theorem State.putV_dt (s : State) (x : Reg) (b : Byte) : (s.putV x b).dt = s.dt := rfl
@[simp] theorem State.putV_st (s : State) (x : Reg) (b : Byte) : (s.putV x b).st = s.st := rfl
@[simp] theorem State.putV_display (s : State) (x : Reg) (b : Byte) : (s.putV x b).display = s.display := rfl
@[simp] theorem State.putV_keyDown (s : State) (x : Reg) (b : Byte) : (s.putV x b).keyDown = s.keyDown := rfl
@[simp] theorem State.putV_observedKey (s : State) (x : Reg) (b : Byte) : (s.putV x b).observedKey = s.observedKey := rfl
@[simp] theorem State.putV_wait (s : State) (x : Reg) (b : Byte) : (s.putV x b).wait = s.wait := rfl
@[simp] theorem State.putV_run (s : State) (x : Reg) (b : Byte) : (s.putV x b).run = s.run := rfl
@[simp] theorem State.putV_lastError (s : State) (x : Reg) (b : Byte) : (s.putV x b).lastError = s.lastError := rfl
@[simp] theorem State.putV_soundExpired (s : State) (x : Reg) (b : Byte) : (s.putV x b).soundExpired = s.soundExpired := rfl
@[simp] theorem State.putV_params (s : State) (x : Reg) (b : Byte) : (s.putV x b).params = s.params := rfl
@[simp] theorem State.putV_draws (s : State) (x : Reg) (b : Byte) : (s.putV x b).draws = s.draws := rfl
@[simp] theorem State.putV_cycled (s : State) (x : Reg) (b : Byte) : (s.putV x b).cycled = s.cycled := rfl

/-! ### Registers and memory through the other updates -/

@[simp] theorem State.getV_setMem (s : State) (w : List Host.Cell) (x : Reg) : (s.setMem w).getV x = s.getV x := rfl
@[simp] theorem State.getV_setI (s : State) (w : Word) (x : Reg) : (s.setI w).getV x = s.getV x := rfl
@[simp] theorem State.getV_setPc (s : State) (w : Word) (x : Reg) : (s.setPc w).getV x = s.getV x := rfl
@[simp] theorem State.getV_setStack (s : State) (w : Vector Word 16) (x : Reg) : (s.setStack w).getV x = s.getV x := rfl
@[simp] theorem State.getV_setSp (s : State) (w : Byte) (x : Reg) : (s.setSp w).getV x = s.getV x := rfl
@[simp] theorem State.getV_setDt (s : State) (w : Byte) (x : Reg) : (s.setDt w).getV x = s.getV x := rfl
@[simp] theorem State.getV_setSt (s : State) (w : Byte) (x : Reg) : (s.setSt w).getV x = s.getV x := rfl
@[simp] theorem State.getV_setDisplay (s : State) (w : Display) (x : Reg) : (s.setDisplay w).getV x = s.getV x := rfl
@[simp] theorem State.getV_setKeyDown (s : State) (w : Vector Bool 16) (x : Reg) : (s.setKeyDown w).getV x = s.getV x := rfl
@[simp] theorem State.getV_setObservedKey (s : State) (w : Option Key) (x : Reg) : (s.setObservedKey w).getV x = s.getV x := rfl
@[simp] theorem State.getV_setWait (s : State) (w : Option Reg) (x : Reg) : (s.setWait w).getV x = s.getV x := rfl
@[simp] theorem State.getV_setRun (s : State) (w : Run) (x : Reg) : (s.setRun w).getV x = s.getV x := rfl
@[simp] theorem State.getV_setLastError (s : State) (w : Option Error) (x : Reg) : (s.setLastError w).getV x = s.getV x := rfl
@[simp] theorem State.getV_setSoundExpired (s : State) (w : Bool) (x : Reg) : (s.setSoundExpired w).getV x = s.getV x := rfl
@[simp] theorem State.getV_setDraws (s : State) (w : Nat) (x : Reg) : (s.setDraws w).getV x = s.getV x := rfl
@[simp] theorem State.getV_setCycled (s : State) (w : Bool) (x : Reg) : (s.setCycled w).getV x = s.getV x := rfl

@[simp] theorem State.readByte_setI (s : State) (w : Word) (a : Nat) : (s.setI w).readByte a = s.readByte a := rfl
@[simp] theorem State.readByte_setPc (s : State) (w : Word) (a : Nat) : (s.setPc w).readByte a = s.readByte a := rfl
@[simp] theorem State.readByte_setStack (s : State) (w : Vector Word 16) (a : Nat) : (s.setStack w).readByte a = s.readByte a := rfl
@[simp] theorem State.readByte_setSp (s : State) (w : Byte) (a : Nat) : (s.setSp w).readByte a = s.readByte a := rfl
@[simp] theorem State.readByte_setDt (s : State) (w : Byte) (a : Nat) : (s.setDt w).readByte a = s.readByte a := rfl
@[simp] theorem State.readByte_setSt (s : State) (w : Byte) (a : Nat) : (s.setSt w).readByte a = s.readByte a := rfl
@[simp] theorem State.readByte_setDisplay (s : State) (w : Display) (a : Nat) : (s.setDisplay w).readByte a = s.readByte a := rfl
@[simp] theorem State.readByte_setKeyDown (s : State) (w : Vector Bool 16) (a : Nat) : (s.setKeyDown w).readByte a = s.readByte a := rfl
@[simp] theorem State.readByte_setObservedKey (s : State) (w : Option Key) (a : Nat) : (s.setObservedKey w).readByte a = s.readByte a := rfl
@[simp] theorem State.readByte_setWait (s : State) (w : Option Reg) (a : Nat) : (s.setWait w).readByte a = s.readByte a := rfl
@[simp] theorem State.readByte_setRun (s : State) (w : Run) (a : Nat) : (s.setRun w).readByte a = s.readByte a := rfl
@[simp] theorem State.readByte_setLastError (s : State) (w : Option Error) (a : Nat) : (s.setLastError w).readByte a = s.readByte a := rfl
@[simp] theorem State.readByte_setSoundExpired (s : State) (w : Bool) (a : Nat) : (s.setSoundExpired w).readByte a = s.readByte a := rfl
@[simp] theorem State.readByte_setDraws (s : State) (w : Nat) (a : Nat) : (s.setDraws w).readByte a = s.readByte a := rfl
@[simp] theorem State.readByte_setCycled (s : State) (w : Bool) (a : Nat) : (s.setCycled w).readByte a = s.readByte a := rfl
@[simp] theorem State.readByte_setV (s : State) (w : Vector Byte 16) (a : Nat) : (s.setV w).readByte a = s.readByte a := rfl
@[simp] theorem State.readByte_putV (s : State) (x : Reg) (b : Byte) (a : Nat) : (s.putV x b).readByte a = s.readByte a := rfl

/-- A register written reads back; every other register keeps its value. -/
theorem State.getV_putV (s : State) (x y : Reg) (b : Byte) :
    (s.putV x b).getV y = if x = y then b else s.getV y := by
  simp only [State.getV, State.putV_v, Vector.getElem_set, BitVec.toNat_inj]

@[simp] theorem State.getV_putV_self (s : State) (x : Reg) (b : Byte) : (s.putV x b).getV x = b := by
  simp [State.getV_putV]

theorem State.getV_putV_of_ne (s : State) {x y : Reg} (b : Byte) (h : x ≠ y) :
    (s.putV x b).getV y = s.getV y := by
  simp [State.getV_putV, h]

end Sys2Proof.Machine
end

