-- ==== Sys2Proof/Laws/Memory.lean ====
section
/-!
SUPPORT. The laws of memory: a read after a write, a read after a multi-byte store, and that every
memory operation keeps the canonical form.
-/

namespace Sys2Proof.Machine

/-! ### Lookup -/

theorem Memory.lookup_insert (m : List Host.Cell) (k : Nat) (v : Byte) (a : Nat) :
    Memory.lookup (Memory.insert m k v) a = if k = a then some v else Memory.lookup m a := by
  induction m with
  | nil => simp [Memory.insert, Memory.lookup]
  | cons c m ih =>
    obtain ⟨b, w⟩ := c
    simp only [Memory.insert]
    split
    · simp [Memory.lookup]
    · split
      · subst b
        by_cases h : k = a <;> simp [Memory.lookup, h]
      · by_cases h : b = a
        · subst a
          simp [Memory.lookup, *]
        · simp [Memory.lookup, h, ih]

theorem Memory.lookup_erase (m : List Host.Cell) (k a : Nat) :
    Memory.lookup (Memory.erase m k) a = if k = a then none else Memory.lookup m a := by
  induction m with
  | nil => simp [Memory.erase, Memory.lookup]
  | cons c m ih =>
    obtain ⟨b, w⟩ := c
    simp only [Memory.erase]
    split
    · subst b
      rw [ih]
      by_cases h : k = a <;> simp [Memory.lookup, h]
    · by_cases h : b = a
      · subst a
        have hk : k ≠ b := fun h => by simp_all
        simp [Memory.lookup, hk]
      · simp [Memory.lookup, h, ih]

/-! ### Reads after writes (R51, R57, R60) -/

/-- A byte written inside memory reads back, and a write changes only the byte at its address. -/
theorem Memory.read_write (m : List Host.Cell) (k : Nat) (v : Byte) (a : Nat) :
    Memory.read (Memory.write m k v) a = if k = a ∧ k < memorySize then v else Memory.read m a := by
  unfold Memory.write
  by_cases hk : k < memorySize
  · by_cases hv : v = Memory.unlisted k
    · simp only [hk, hv, if_true, Memory.read, Memory.lookup_erase]
      by_cases h : k = a <;> simp [h]
    · simp only [hk, hv, if_true, if_false, Memory.read, Memory.lookup_insert]
      by_cases h : k = a <;> simp [h]
  · simp [hk]

/-- Reading after a multi-byte store that lies inside memory: the bytes stored, else as before. -/
theorem Memory.read_store (bs : List Byte) (m : List Host.Cell) (a k : Nat)
    (h : a + bs.length ≤ memorySize) :
    Memory.read (Memory.store m a bs) k =
      if a ≤ k ∧ k < a + bs.length then bs.getD (k - a) 0 else Memory.read m k := by
  induction bs generalizing m a with
  | nil => simp [Memory.store]
  | cons b bs ih =>
    simp only [List.length_cons] at h
    rw [Memory.store, ih _ _ (by omega), Memory.read_write]
    by_cases hk : a = k
    · subst hk
      have : ¬ (a + 1 ≤ a) := by omega
      have h1 : a < memorySize := by omega
      simp [h1]
    · by_cases hin : a + 1 ≤ k ∧ k < a + 1 + bs.length
      · have h2 : a ≤ k ∧ k < a + (b :: bs).length := by simp; omega
        rw [if_pos hin, if_pos h2]
        obtain ⟨j, rfl⟩ : ∃ j, k = a + 1 + j := ⟨k - (a + 1), by omega⟩
        have e1 : a + 1 + j - (a + 1) = j := by omega
        have e2 : a + 1 + j - a = j + 1 := by omega
        rw [e1, e2, List.getD_cons_succ]
      · have h2 : ¬ (a ≤ k ∧ k < a + (b :: bs).length) := by simp; omega
        rw [if_neg hin, if_neg h2, if_neg (by simp [hk])]

/-- A store leaves every byte outside the stored range as it was, wherever the range lies. -/
theorem Memory.read_store_outside (bs : List Byte) (m : List Host.Cell) (a k : Nat)
    (h : k < a ∨ a + bs.length ≤ k) : Memory.read (Memory.store m a bs) k = Memory.read m k := by
  induction bs generalizing m a with
  | nil => simp [Memory.store]
  | cons b bs ih =>
    simp only [List.length_cons] at h
    rw [Memory.store, ih _ _ (by omega), Memory.read_write, if_neg (by omega)]

/-! ### The canonical form -/

theorem Memory.wfFrom_mono {lo lo' : Nat} {m : List Host.Cell} (hle : lo' ≤ lo)
    (h : Memory.wfFrom lo m = true) : Memory.wfFrom lo' m = true := by
  cases m with
  | nil => simp [Memory.wfFrom]
  | cons c m =>
    obtain ⟨b, w⟩ := c
    simp only [Memory.wfFrom, Bool.and_eq_true, decide_eq_true_eq] at h ⊢
    exact ⟨⟨⟨by omega, h.1.1.2⟩, h.1.2⟩, h.2⟩

theorem Memory.wfFrom_insert {lo : Nat} {m : List Host.Cell} {k : Nat} {v : Byte}
    (h : Memory.wfFrom lo m = true) (hlo : lo ≤ k) (hk : k < memorySize)
    (hv : v ≠ Memory.unlisted k) : Memory.wfFrom lo (Memory.insert m k v) = true := by
  induction m generalizing lo with
  | nil => simp [Memory.insert, Memory.wfFrom, hlo, hk, hv]
  | cons c m ih =>
    obtain ⟨b, w⟩ := c
    simp only [Memory.wfFrom, Bool.and_eq_true, decide_eq_true_eq] at h
    simp only [Memory.insert]
    split
    · simp only [Memory.wfFrom, Bool.and_eq_true, decide_eq_true_eq, bne_iff_ne]
      exact ⟨⟨⟨hlo, hk⟩, hv⟩, ⟨⟨⟨by omega, h.1.1.2⟩, by simpa using h.1.2⟩, h.2⟩⟩
    · split
      · subst b
        simp only [Memory.wfFrom, Bool.and_eq_true, decide_eq_true_eq, bne_iff_ne]
        exact ⟨⟨⟨hlo, hk⟩, hv⟩, h.2⟩
      · simp only [Memory.wfFrom, Bool.and_eq_true, decide_eq_true_eq]
        exact ⟨⟨h.1.1, h.1.2⟩, ih h.2 (by omega)⟩

theorem Memory.wfFrom_erase {lo : Nat} {m : List Host.Cell} {k : Nat}
    (h : Memory.wfFrom lo m = true) : Memory.wfFrom lo (Memory.erase m k) = true := by
  induction m generalizing lo with
  | nil => simp [Memory.erase, Memory.wfFrom]
  | cons c m ih =>
    obtain ⟨b, w⟩ := c
    simp only [Memory.wfFrom, Bool.and_eq_true, decide_eq_true_eq] at h
    simp only [Memory.erase]
    split
    · exact ih (Memory.wfFrom_mono (by omega) h.2)
    · simp only [Memory.wfFrom, Bool.and_eq_true, decide_eq_true_eq]
      exact ⟨⟨h.1.1, h.1.2⟩, ih h.2⟩

theorem Memory.wf_write {m : List Host.Cell} (k : Nat) (v : Byte) (h : Memory.wf m = true) :
    Memory.wf (Memory.write m k v) = true := by
  unfold Memory.write
  split
  · split
    · exact Memory.wfFrom_erase h
    · exact Memory.wfFrom_insert h (Nat.zero_le _) ‹_› ‹_›
  · exact h

/-- Every store keeps the canonical form. -/
theorem Memory.wf_store {m : List Host.Cell} (a : Nat) (bs : List Byte) (h : Memory.wf m = true) :
    Memory.wf (Memory.store m a bs) = true := by
  induction bs generalizing m a with
  | nil => exact h
  | cons b bs ih => exact ih _ (Memory.wf_write _ _ h)

theorem State.wf_writeBytes {s : State} (a : Nat) (bs : List Byte) (h : Memory.wf s.mem = true) :
    Memory.wf (s.writeBytes a bs).mem = true := Memory.wf_store a bs h

/-- Memory after construction is in canonical form: it lists nothing. -/
theorem State.reset_mem_wf : Memory.wf State.reset.mem = true := rfl

/-- Memory after a construction with any fontset is in canonical form. -/
theorem State.construct_mem_wf (p : Params) (policy : ResetRegPolicy) (font : Fontset)
    (draw : ResetDraws) : Memory.wf (State.construct p policy font draw).mem = true :=
  Memory.wf_store 0 font.toList rfl

end Sys2Proof.Machine
end

