-- ==== Sys2Proof/Laws/Ops.lean ====
section
/-!
SUPPORT. One lemma per shared operation that says everything it can do; later proofs cite these and
unfold no operation.
-/

namespace Sys2Proof.Machine

/-! ### Outcomes -/

@[simp] theorem outNext_eq (s : State) : outNext s = .next (s.setPc (s.pc + 2)) := rfl

@[simp] theorem outJumped_eq (s : State) : outJumped s = .next s := rfl

/-- A skip moves `PC` by 4 if taken and by 2 if not, and changes nothing else (R121). -/
theorem outSkipIf_eq (taken : Bool) (s : State) :
    outSkipIf taken s = .next (s.setPc (if taken then s.pc + 4 else s.pc + 2)) := by
  cases taken
  · rfl
  · simp only [outSkipIf, outNext_eq, if_true]
    have h : s.pc + 2 + 2 = s.pc + 4 := by rw [BitVec.add_assoc]; rfl
    exact congrArg (fun w => Host.Outcome.next (s.setPc w)) h

/-- An error taken under the halt policy, or a stack error under either, halts with `PC` kept (R224). -/
theorem handleError_of_halts {e : Error} {s : State} (h : haltsOn s.params.errorPolicy e = true) :
    handleError e s = (s.setLastError (some e)).setRun (.halted e) := by
  simp [handleError, h]

/-- Any other error under the skip policy advances `PC` by 2 (R225). -/
theorem handleError_of_skips {e : Error} {s : State} (h : haltsOn s.params.errorPolicy e = false) :
    handleError e s = (s.setLastError (some e)).setPc (s.pc + 2) := by
  simp [handleError, h]

/-- Everything taking an error can do: the two cases of R224 and R225. -/
theorem handleError_cases (e : Error) (s : State) :
    (haltsOn s.params.errorPolicy e = true ∧
      handleError e s = (s.setLastError (some e)).setRun (.halted e)) ∨
    (haltsOn s.params.errorPolicy e = false ∧
      handleError e s = (s.setLastError (some e)).setPc (s.pc + 2)) := by
  cases h : haltsOn s.params.errorPolicy e
  · exact .inr ⟨rfl, handleError_of_skips h⟩
  · exact .inl ⟨rfl, handleError_of_halts h⟩

@[simp] theorem raiseError_eq (e : Error) (s : State) : raiseError e s = .next (handleError e s) := rfl

theorem handleError_lastError (e : Error) (s : State) : (handleError e s).lastError = some e := by
  unfold handleError; split <;> simp

/-! ### What taking an error leaves alone (R223, R232) -/

@[simp] theorem handleError_mem (e : Error) (s : State) : (handleError e s).mem = s.mem := by
  unfold handleError; split <;> simp
@[simp] theorem handleError_v (e : Error) (s : State) : (handleError e s).v = s.v := by
  unfold handleError; split <;> simp
@[simp] theorem handleError_i (e : Error) (s : State) : (handleError e s).i = s.i := by
  unfold handleError; split <;> simp
@[simp] theorem handleError_stack (e : Error) (s : State) : (handleError e s).stack = s.stack := by
  unfold handleError; split <;> simp
@[simp] theorem handleError_sp (e : Error) (s : State) : (handleError e s).sp = s.sp := by
  unfold handleError; split <;> simp
@[simp] theorem handleError_dt (e : Error) (s : State) : (handleError e s).dt = s.dt := by
  unfold handleError; split <;> simp
@[simp] theorem handleError_st (e : Error) (s : State) : (handleError e s).st = s.st := by
  unfold handleError; split <;> simp
@[simp] theorem handleError_display (e : Error) (s : State) :
    (handleError e s).display = s.display := by
  unfold handleError; split <;> simp
@[simp] theorem handleError_keyDown (e : Error) (s : State) :
    (handleError e s).keyDown = s.keyDown := by
  unfold handleError; split <;> simp
@[simp] theorem handleError_observedKey (e : Error) (s : State) :
    (handleError e s).observedKey = s.observedKey := by
  unfold handleError; split <;> simp
@[simp] theorem handleError_wait (e : Error) (s : State) : (handleError e s).wait = s.wait := by
  unfold handleError; split <;> simp
@[simp] theorem handleError_soundExpired (e : Error) (s : State) :
    (handleError e s).soundExpired = s.soundExpired := by
  unfold handleError; split <;> simp
@[simp] theorem handleError_params (e : Error) (s : State) : (handleError e s).params = s.params := by
  unfold handleError; split <;> simp
@[simp] theorem handleError_draws (e : Error) (s : State) : (handleError e s).draws = s.draws := by
  unfold handleError; split <;> simp
@[simp] theorem handleError_cycled (e : Error) (s : State) : (handleError e s).cycled = s.cycled := by
  unfold handleError; split <;> simp

/-! ### Guards -/

/-- The range check in numbers: out of range when the last byte lies above 0xFFF (R52). -/
theorem outOfRange_iff (i : Word) (count : Nat) :
    outOfRange i count = true ↔ 0 < count ∧ 4096 < i.toNat + count := by
  simp only [outOfRange, Bool.and_eq_true, decide_eq_true_eq]
  omega

theorem outOfRange_eq_false_iff (i : Word) (count : Nat) :
    outOfRange i count = false ↔ count = 0 ∨ i.toNat + count ≤ 4096 := by
  rw [← Bool.not_eq_true, outOfRange_iff]
  omega

/-- Everything the range check can do: raise with nothing changed, or go on (R52). -/
theorem withRange_cases (count : Nat) (s : State) (k : State → Outcome) :
    ((0 < count ∧ 4096 < s.i.toNat + count) ∧
      withRange count s k = raiseError (.memOutOfBounds s.i count) s) ∨
    ((count = 0 ∨ s.i.toNat + count ≤ 4096) ∧ withRange count s k = k s) := by
  cases h : outOfRange s.i count
  · exact .inr ⟨(outOfRange_eq_false_iff _ _).1 h, by simp [withRange, h]⟩
  · exact .inl ⟨(outOfRange_iff _ _).1 h, by simp [withRange, h]⟩

theorem withRange_of_inside {count : Nat} {s : State} (k : State → Outcome)
    (h : count = 0 ∨ s.i.toNat + count ≤ 4096) : withRange count s k = k s := by
  simp [withRange, (outOfRange_eq_false_iff _ _).2 h]

theorem withRange_of_outside {count : Nat} {s : State} (k : State → Outcome)
    (h : 0 < count ∧ 4096 < s.i.toNat + count) :
    withRange count s k = raiseError (.memOutOfBounds s.i count) s := by
  simp [withRange, (outOfRange_iff _ _).2 h]

theorem withLegalSp_of_legal {s : State} (k : State → Outcome) (h : s.sp.toNat ≤ 16) :
    withLegalSp s k = k s := by
  have : s.sp ≤ stackCapacity := h
  simp [withLegalSp, this]

theorem withLegalSp_of_illegal {s : State} (k : State → Outcome) (h : 16 < s.sp.toNat) :
    withLegalSp s k = .fault .stackPointerIllegal := by
  have : ¬ s.sp ≤ stackCapacity := fun hle => by
    have h2 : s.sp.toNat ≤ 16 := hle
    omega
  simp [withLegalSp, this]

/-- Everything the stack pointer check can do. -/
theorem withLegalSp_cases (s : State) (k : State → Outcome) :
    (s.sp.toNat ≤ 16 ∧ withLegalSp s k = k s) ∨
    (16 < s.sp.toNat ∧ withLegalSp s k = .fault .stackPointerIllegal) := by
  by_cases h : s.sp.toNat ≤ 16
  · exact .inl ⟨h, withLegalSp_of_legal k h⟩
  · exact .inr ⟨by omega, withLegalSp_of_illegal k (by omega)⟩

/-! ### The tick (R180) -/

/-- Everything one tick does: both timers count down to zero and no further, and `sound_expired`
becomes true exactly when `ST` goes from 1 to 0. -/
theorem tick_eq (s : State) :
    tick s = ((s.setDt (if s.dt = 0 then 0 else s.dt - 1)).setSt
      (if s.st = 0 then 0 else s.st - 1)).setSoundExpired (s.soundExpired || s.st == 1) := by
  have hd : tickDelay s = s.setDt (if s.dt = 0 then 0 else s.dt - 1) := by
    unfold tickDelay
    by_cases h : s.dt = 0
    · have h0 : ¬ s.dt > 0 := by rw [h]; decide
      rw [if_neg h0, if_pos h, ← h]
      rfl
    · have h0 : s.dt > 0 := by
        have : s.dt.toNat ≠ 0 := fun hn => h (BitVec.eq_of_toNat_eq (by simpa using hn))
        show (0 : Byte).toNat < s.dt.toNat
        simp; omega
      rw [if_pos h0, if_neg h]
  have hs : ∀ t : State, tickSound t =
      (t.setSt (if t.st = 0 then 0 else t.st - 1)).setSoundExpired (t.soundExpired || t.st == 1) := by
    intro t
    unfold tickSound
    by_cases h : t.st = 0
    · have h0 : ¬ t.st > 0 := by rw [h]; decide
      have h1 : (t.st == 1) = false := by rw [h]; decide
      rw [if_neg h0, if_pos h, h1, Bool.or_false, ← h]
      rfl
    · have hn : t.st.toNat ≠ 0 := fun hn => h (BitVec.eq_of_toNat_eq (by simpa using hn))
      have h0 : t.st > 0 := by
        show (0 : Byte).toNat < t.st.toNat
        simp; omega
      rw [if_pos h0, if_neg h]
      by_cases h1 : t.st = 1
      · have h2 : t.st - 1 = 0 := by rw [h1]; decide
        have h3 : (t.st == 1) = true := by rw [h1]; decide
        rw [if_pos h2, h3, Bool.or_true]
      · have h2 : ¬ t.st - 1 = 0 := fun h2 => h1 (by
          have := congrArg (· + 1) h2
          simpa using this)
        have h3 : (t.st == 1) = false := by simpa using h1
        rw [if_neg h2, h3, Bool.or_false]
        rfl
  rw [tick, hs, hd]
  rfl

/-- Everything the start of a cycle does (R100, R107). -/
theorem beginCycle_eq (s : State) :
    beginCycle s =
      if s.params.timerTickInCycle then
        (((s.setCycled true).setDt (if s.dt = 0 then 0 else s.dt - 1)).setSt
          (if s.st = 0 then 0 else s.st - 1)).setSoundExpired (s.st == 1)
      else (s.setCycled true).setSoundExpired false := by
  unfold beginCycle
  split
  · rw [tick_eq]
    rfl
  · rfl

/-! ### The start of a cycle leaves everything but the timers and the sound pulse alone -/

@[simp] theorem beginCycle_mem (s : State) : (beginCycle s).mem = s.mem := by
  rw [beginCycle_eq]; split <;> simp
@[simp] theorem beginCycle_v (s : State) : (beginCycle s).v = s.v := by
  rw [beginCycle_eq]; split <;> simp
@[simp] theorem beginCycle_i (s : State) : (beginCycle s).i = s.i := by
  rw [beginCycle_eq]; split <;> simp
@[simp] theorem beginCycle_pc (s : State) : (beginCycle s).pc = s.pc := by
  rw [beginCycle_eq]; split <;> simp
@[simp] theorem beginCycle_stack (s : State) : (beginCycle s).stack = s.stack := by
  rw [beginCycle_eq]; split <;> simp
@[simp] theorem beginCycle_sp (s : State) : (beginCycle s).sp = s.sp := by
  rw [beginCycle_eq]; split <;> simp
@[simp] theorem beginCycle_display (s : State) : (beginCycle s).display = s.display := by
  rw [beginCycle_eq]; split <;> simp
@[simp] theorem beginCycle_keyDown (s : State) : (beginCycle s).keyDown = s.keyDown := by
  rw [beginCycle_eq]; split <;> simp
@[simp] theorem beginCycle_observedKey (s : State) :
    (beginCycle s).observedKey = s.observedKey := by
  rw [beginCycle_eq]; split <;> simp
@[simp] theorem beginCycle_wait (s : State) : (beginCycle s).wait = s.wait := by
  rw [beginCycle_eq]; split <;> simp
@[simp] theorem beginCycle_run (s : State) : (beginCycle s).run = s.run := by
  rw [beginCycle_eq]; split <;> simp
@[simp] theorem beginCycle_lastError (s : State) : (beginCycle s).lastError = s.lastError := by
  rw [beginCycle_eq]; split <;> simp
@[simp] theorem beginCycle_params (s : State) : (beginCycle s).params = s.params := by
  rw [beginCycle_eq]; split <;> simp
@[simp] theorem beginCycle_draws (s : State) : (beginCycle s).draws = s.draws := by
  rw [beginCycle_eq]; split <;> simp
@[simp] theorem beginCycle_cycled (s : State) : (beginCycle s).cycled = true := by
  rw [beginCycle_eq]; split <;> simp

/-! ### The step -/

/-- The fetch in numbers: it ends the run from 0xFFF on, else reads the two bytes at `PC` (R101, R102). -/
theorem fetchWord_of_inside {s : State} (h : s.pc.toNat ≤ 0xFFE) :
    fetchWord s = some (opcodeOfBytes (s.readByte s.pc.toNat) (s.readByte (s.pc.toNat + 1))) := by
  simp only [fetchWord]
  rw [if_neg (by omega)]

theorem fetchWord_of_outside {s : State} (h : 0xFFF ≤ s.pc.toNat) : fetchWord s = none := by
  simp only [fetchWord]
  rw [if_pos (by omega)]

/-- The fetch depends on memory and `PC` alone. -/
theorem fetchWord_congr {s t : State} (hm : s.mem = t.mem) (hp : s.pc = t.pc) :
    fetchWord s = fetchWord t := by
  simp only [fetchWord, State.readByte, hm, hp]

/-- Everything a step that answers a next state can have done: the four events of R100 and R231. -/
theorem step_next_cases {s t : State} (h : step s = .next t) :
    s.run = .running ∧
    ((∃ x, s.wait = some x ∧ t = pollKey x (beginCycle s)) ∨
     (s.wait = none ∧ fetchWord s = none ∧ t = (beginCycle s).setRun .terminated) ∨
     (∃ op i, s.wait = none ∧ fetchWord s = some op ∧ decode op = .instr i ∧
        exec i (beginCycle s) = .next t) ∨
     (∃ op w, s.wait = none ∧ fetchWord s = some op ∧ decode op = .unsupported w ∧
        t = handleError (.unsupported w) (beginCycle s))) := by
  have hf : fetchWord (beginCycle s) = fetchWord s := fetchWord_congr (by simp) (by simp)
  cases hr : s.run with
  | halted e => simp [step, cycle, hr] at h
  | terminated => simp [step, cycle, hr] at h
  | running =>
    refine ⟨rfl, ?_⟩
    simp only [step, cycle, hr, cycleBody, beginCycle_wait, hf] at h
    cases hw : s.wait with
    | some x =>
      simp only [hw, Host.Outcome.next.injEq] at h
      exact .inl ⟨x, rfl, h.symm⟩
    | none =>
      simp only [hw] at h
      cases hop : fetchWord s with
      | none =>
        simp only [hop, Host.Outcome.next.injEq] at h
        exact .inr (.inl ⟨rfl, rfl, h.symm⟩)
      | some op =>
        simp only [hop] at h
        cases hd : decode op with
        | instr i =>
          simp only [hd, execDecoded] at h
          exact .inr (.inr (.inl ⟨op, i, rfl, rfl, hd, h⟩))
        | unsupported w =>
          simp only [hd, execDecoded, raiseError_eq, Host.Outcome.next.injEq] at h
          exact .inr (.inr (.inr ⟨op, w, rfl, rfl, hd, h.symm⟩))

end Sys2Proof.Machine
end

