-- ==== Sys2Proof/Laws/Instr.lean ====
section
/-!
SUPPORT. What the operand forms, the flag operation, the register block and the sprite loops do, each
said once.
-/

namespace Sys2Proof.Machine

/-! ### Flag instructions (R140) -/

/-- A flag instruction ends with the result in `V[x]`, the flag in `VF` when `x` is not 15, and every
other register as it was. -/
theorem getV_flagThenResult (x a b r : Reg) (flag result : Byte → Byte → Byte) (s : State) :
    (flagThenResult x a b flag result s).getV r =
      if x = r then
        result (operandAfterFlag s (s.putV vf (flag (s.getV a) (s.getV b))) a)
          (operandAfterFlag s (s.putV vf (flag (s.getV a) (s.getV b))) b)
      else if vf = r then flag (s.getV a) (s.getV b) else s.getV r := by
  simp only [flagThenResult, State.getV_putV]

/-- The result step's operand: the flag if the register is `VF` and the mode is sequential, else the
register's value from before the instruction (R140). -/
theorem operandAfterFlag_putV (s : State) (f : Byte) (r : Reg) :
    operandAfterFlag s (s.putV vf f) r =
      if vf = r ∧ s.params.aluReadMode = .sequential then f else s.getV r := by
  unfold operandAfterFlag
  cases s.params.aluReadMode <;> simp [State.getV_putV]

/-- A flag instruction writes registers only. -/
theorem flagThenResult_eq (x a b : Reg) (flag result : Byte → Byte → Byte) (s : State) :
    flagThenResult x a b flag result s = s.setV (flagThenResult x a b flag result s).v := rfl

theorem flagByte_eq_one_iff (b : Bool) : flagByte b = 1 ↔ b = true := by cases b <;> decide

theorem flagByte_toNat (b : Bool) : (flagByte b).toNat = if b then 1 else 0 := by cases b <;> rfl

/-! ### Dump and load (R205, R206) -/

theorem length_dumpBytes (s : State) (x : Reg) : (dumpBytes s x).length = blockCount x := by
  have := x.isLt
  simp only [dumpBytes, blockCount, List.length_take, Vector.length_toList]
  omega

/-- The bytes a dump stores are the registers in order. -/
theorem getD_dumpBytes (s : State) (x r : Reg) (h : r.toNat ≤ x.toNat) :
    (dumpBytes s x).getD r.toNat 0 = s.getV r := by
  have hr := r.isLt
  have hlt : r.toNat < x.toNat + 1 := by omega
  have h16 : r.toNat < 16 := hr
  simp [dumpBytes, blockCount, List.getD_eq_getElem?_getD, hlt, State.getV,
    Vector.getElem?_eq_getElem h16]

/-- The registers after a load: the first `n` from memory, the rest as they were. -/
theorem getElem_loadBlock (s : State) (a n : Nat) (v : Vector Byte 16) (r : Nat) (hr : r < 16) :
    (loadBlock s a n v)[r] = if r < n then s.readByte (a + r) else v[r] := by
  induction n with
  | zero => simp [loadBlock]
  | succ n ih =>
    simp only [loadBlock, Vector.getElem_setIfInBounds, ih]
    by_cases h : n = r
    · subst h; simp
    · rw [if_neg h]
      by_cases h2 : r < n
      · rw [if_pos h2, if_pos (by omega)]
      · rw [if_neg h2, if_neg (by omega)]

/-! ### The display (R31, R171) -/

/-- A toggle flips its own pixel and no other. -/
theorem Display.pixel_toggle (d : Display) (r r' : Fin 32) (c c' : Fin 64) :
    (d.toggle r c).pixel r' c' = if r = r' ∧ c = c' then !d.pixel r c else d.pixel r' c' := by
  by_cases hr : r = r'
  · subst hr
    by_cases hc : c = c'
    · subst hc
      simp [Display.toggle, Display.pixel]
    · have : (c : Nat) ≠ c' := fun h => hc (Fin.ext h)
      simp [Display.toggle, Display.pixel, hc, Vector.getElem_set_ne, this]
  · have : (r : Nat) ≠ r' := fun h => hr (Fin.ext h)
    simp [Display.toggle, Display.pixel, hr, Vector.getElem_set_ne, this]

@[simp] theorem Display.pixel_blank (r : Fin 32) (c : Fin 64) : Display.blank.pixel r c = false := by
  simp [Display.blank, Display.pixel]

/-- Displays with the same pixels are the same display. -/
theorem Display.ext_pixel {d e : Display} (h : ∀ r c, Display.pixel d r c = Display.pixel e r c) :
    d = e := by
  apply Vector.ext
  intro r hr
  apply Vector.ext
  intro c hc
  exact h ⟨r, hr⟩ ⟨c, hc⟩

end Sys2Proof.Machine
end

