-- ==== Sys2Proof/Laws/Exec.lean ====
section
/-!
SUPPORT. Everything each instruction can do, said once: an equation where it has one outcome, and the list
of its outcomes with their conditions where it has several. Later proofs cite these and unfold no meaning.
-/

namespace Sys2Proof.Machine

/-! ### Taking an error -/

/-- The driver halts under the halt policy, and on a stack error under either (R224). -/
theorem haltsOn_iff (e : Error) (s : State) : haltsOn s.params.errorPolicy e = true ↔
    s.params.errorPolicy = .halt ∨ e = .stackOverflow ∨ e = .stackUnderflow := by
  cases hp : s.params.errorPolicy <;> cases e <;> simp [haltsOn, Error.alwaysHalts]

/-- What the driver does on an error is what claims call taking it (R223 to R225). -/
theorem takesError_handleError (e : Error) (s : State) : TakesError e s (handleError e s) := by
  refine ⟨handleError_lastError e s, ?_, ?_⟩
  · rcases handleError_cases e s with ⟨h, he⟩ | ⟨h, he⟩
    · rw [if_pos ((haltsOn_iff e s).1 h), he]; simp
    · rw [if_neg (fun hh => by rw [(haltsOn_iff e s).2 hh] at h; cases h), he]; simp
  · constructor <;> intros <;> first | rfl | simp_all [State.getV, State.readByte]

/-- Taking an error leaves `PC` or advances it by 2 (R224, R225). -/
theorem handleError_pc_cases (e : Error) (s : State) :
    (handleError e s).pc = s.pc ∨ (handleError e s).pc = s.pc + 2 := by
  rcases handleError_cases e s with ⟨_, he⟩ | ⟨_, he⟩ <;> rw [he] <;> simp

/-! ### Instructions with one outcome -/

theorem exec_sys (nnn : Addr) (s : State) :
    exec (.sys nnn) s = .next (handleError (.sysNotExecutable nnn) s) := rfl

theorem exec_cls (s : State) :
    exec .cls s = .next ((s.setDisplay Display.blank).setPc (s.pc + 2)) := rfl

theorem exec_jp (nnn : Addr) (s : State) : exec (.jp nnn) s = .next (s.setPc (zext16 nnn)) := rfl

theorem exec_jpV0 (nnn : Addr) (s : State) :
    exec (.jpV0 nnn) s = .next (s.setPc (zext16 nnn + zext16 (s.getV 0))) := rfl

theorem exec_seImm (x : Reg) (kk : Byte) (s : State) :
    exec (.seImm x kk) s = .next (s.setPc (if s.getV x == kk then s.pc + 4 else s.pc + 2)) :=
  outSkipIf_eq _ _

theorem exec_sneImm (x : Reg) (kk : Byte) (s : State) :
    exec (.sneImm x kk) s = .next (s.setPc (if s.getV x != kk then s.pc + 4 else s.pc + 2)) :=
  outSkipIf_eq _ _

theorem exec_seReg (x y : Reg) (s : State) :
    exec (.seReg x y) s = .next (s.setPc (if s.getV x == s.getV y then s.pc + 4 else s.pc + 2)) :=
  outSkipIf_eq _ _

theorem exec_sneReg (x y : Reg) (s : State) :
    exec (.sneReg x y) s = .next (s.setPc (if s.getV x != s.getV y then s.pc + 4 else s.pc + 2)) :=
  outSkipIf_eq _ _

theorem exec_ldImm (x : Reg) (kk : Byte) (s : State) :
    exec (.ldImm x kk) s = .next ((s.putV x kk).setPc (s.pc + 2)) := rfl

theorem exec_addImm (x : Reg) (kk : Byte) (s : State) :
    exec (.addImm x kk) s = .next ((s.putV x (s.getV x + kk)).setPc (s.pc + 2)) := rfl

theorem exec_ldReg (x y : Reg) (s : State) :
    exec (.ldReg x y) s = .next ((s.putV x (s.getV y)).setPc (s.pc + 2)) := rfl

theorem exec_orReg (x y : Reg) (s : State) :
    exec (.orReg x y) s = .next ((s.putV x (s.getV x ||| s.getV y)).setPc (s.pc + 2)) := rfl

theorem exec_andReg (x y : Reg) (s : State) :
    exec (.andReg x y) s = .next ((s.putV x (s.getV x &&& s.getV y)).setPc (s.pc + 2)) := rfl

theorem exec_xorReg (x y : Reg) (s : State) :
    exec (.xorReg x y) s = .next ((s.putV x (s.getV x ^^^ s.getV y)).setPc (s.pc + 2)) := rfl

theorem exec_addReg (x y : Reg) (s : State) :
    exec (.addReg x y) s =
      .next ((flagThenResult x x y carryFlag (fun a b => a + b) s).setPc (s.pc + 2)) := rfl

theorem exec_sub (x y : Reg) (s : State) :
    exec (.sub x y) s =
      .next ((flagThenResult x x y notBorrowFlag (fun a b => a - b) s).setPc (s.pc + 2)) := rfl

theorem exec_subn (x y : Reg) (s : State) :
    exec (.subn x y) s =
      .next ((flagThenResult x x y (fun a b => notBorrowFlag b a) (fun a b => b - a) s).setPc
        (s.pc + 2)) := rfl

theorem exec_shr (x y : Reg) (s : State) :
    exec (.shr x y) s =
      .next ((flagThenResult x (shiftSourceReg s x y) (shiftSourceReg s x y)
        (fun a _ => shiftedOutRight a) (fun a _ => a >>> 1) s).setPc (s.pc + 2)) := rfl

theorem exec_shl (x y : Reg) (s : State) :
    exec (.shl x y) s =
      .next ((flagThenResult x (shiftSourceReg s x y) (shiftSourceReg s x y)
        (fun a _ => shiftedOutLeft a) (fun a _ => a <<< 1) s).setPc (s.pc + 2)) := rfl

theorem exec_rnd (x : Reg) (kk : Byte) (s : State) :
    exec (.rnd x kk) s =
      .next (((s.putV x (Config.randomByte s.draws &&& kk)).setDraws (s.draws + 1)).setPc
        (s.pc + 2)) := rfl

theorem exec_skp (x : Reg) (s : State) :
    exec (.skp x) s = .next (s.setPc (if keyPressed s x then s.pc + 4 else s.pc + 2)) :=
  outSkipIf_eq _ _

theorem exec_sknp (x : Reg) (s : State) :
    exec (.sknp x) s = .next (s.setPc (if !keyPressed s x then s.pc + 4 else s.pc + 2)) :=
  outSkipIf_eq _ _

theorem exec_ldVxDt (x : Reg) (s : State) :
    exec (.ldVxDt x) s = .next ((s.putV x s.dt).setPc (s.pc + 2)) := rfl

theorem exec_ldDtVx (x : Reg) (s : State) :
    exec (.ldDtVx x) s = .next ((s.setDt (s.getV x)).setPc (s.pc + 2)) := rfl

theorem exec_ldStVx (x : Reg) (s : State) :
    exec (.ldStVx x) s = .next ((s.setSt (s.getV x)).setPc (s.pc + 2)) := rfl

theorem exec_ldI (nnn : Addr) (s : State) :
    exec (.ldI nnn) s = .next ((s.setI (zext16 nnn)).setPc (s.pc + 2)) := rfl

theorem exec_addI (x : Reg) (s : State) :
    exec (.addI x) s = .next ((s.setI (s.i + zext16 (s.getV x))).setPc (s.pc + 2)) := rfl

/-! ### Instructions with several outcomes -/

/-- The outcomes of `CALL` (R124, R221). -/
theorem exec_call_cases (nnn : Addr) (s : State) :
    (s.sp.toNat < 16 ∧ exec (.call nnn) s = .next ((push s.pc s).setPc (zext16 nnn))) ∨
    (s.sp.toNat = 16 ∧ exec (.call nnn) s = .next (handleError .stackOverflow s)) ∨
    (16 < s.sp.toNat ∧ exec (.call nnn) s = .fault .stackPointerIllegal) := by
  show (_ ∧ execCall nnn s = _) ∨ (_ ∧ execCall nnn s = _) ∨ (_ ∧ execCall nnn s = _)
  have hcap : s.sp = stackCapacity ↔ s.sp.toNat = 16 := by
    rw [← BitVec.toNat_inj]; rfl
  unfold execCall
  rcases Nat.lt_trichotomy s.sp.toNat 16 with h | h | h
  · have hne : ¬ s.sp = stackCapacity := by rw [hcap]; omega
    exact .inl ⟨h, by rw [withLegalSp_of_legal _ (by omega), if_neg hne]; rfl⟩
  · exact .inr (.inl ⟨h, by rw [withLegalSp_of_legal _ (by omega), if_pos (hcap.2 h)]; rfl⟩)
  · exact .inr (.inr ⟨h, withLegalSp_of_illegal _ h⟩)

/-- The outcomes of `RET` (R123, R222). -/
theorem exec_ret_cases (s : State) :
    (0 < s.sp.toNat ∧ s.sp.toNat ≤ 16 ∧
      exec .ret s = .next ((pop s).setPc (popped s + 2))) ∨
    (s.sp.toNat = 0 ∧ exec .ret s = .next (handleError .stackUnderflow s)) ∨
    (16 < s.sp.toNat ∧ exec .ret s = .fault .stackPointerIllegal) := by
  show (_ ∧ _ ∧ execRet s = _) ∨ (_ ∧ execRet s = _) ∨ (_ ∧ execRet s = _)
  have hz : s.sp = 0 ↔ s.sp.toNat = 0 := by
    rw [← BitVec.toNat_inj]; rfl
  unfold execRet
  by_cases h : 16 < s.sp.toNat
  · exact .inr (.inr ⟨h, withLegalSp_of_illegal _ h⟩)
  · rw [withLegalSp_of_legal _ (by omega)]
    by_cases h0 : s.sp.toNat = 0
    · exact .inr (.inl ⟨h0, by rw [if_pos (hz.2 h0)]; rfl⟩)
    · have hne : ¬ s.sp = 0 := by rw [hz]; exact h0
      exact .inl ⟨by omega, by omega, by rw [if_neg hne]; rfl⟩

/-- The display and collision `DRW` computes from the state before it (R171). -/
def drawnSprite (s : State) (x y : Reg) (n : Nibble) : Display × Bool :=
  drawRows s (s.getV x) (s.getV y) s.i.toNat n.toNat (s.display, false)

/-- The outcomes of `DRW` (R171). -/
theorem exec_drw_cases (x y : Reg) (n : Nibble) (s : State) :
    ((0 < n.toNat ∧ 4096 < s.i.toNat + n.toNat) ∧
      exec (.drw x y n) s = .next (handleError (.memOutOfBounds s.i n.toNat) s)) ∨
    ((n.toNat = 0 ∨ s.i.toNat + n.toNat ≤ 4096) ∧
      exec (.drw x y n) s = .next (((s.setDisplay (drawnSprite s x y n).1).putV vf
        (flagByte (drawnSprite s x y n).2)).setPc (s.pc + 2))) := by
  show (_ ∧ execDrw x y n s = _) ∨ (_ ∧ execDrw x y n s = _)
  unfold execDrw
  exact withRange_cases _ _ _

/-- The outcomes of `LD Vx, K` (R185). -/
theorem exec_ldVxK_cases (x : Reg) (s : State) :
    (∃ k, s.observedKey = some k ∧
      exec (.ldVxK x) s = .next ((s.putV x (zext8 k)).setPc (s.pc + 2))) ∨
    (s.observedKey = none ∧ exec (.ldVxK x) s = .next (s.setWait (some x))) := by
  show (∃ k, _ ∧ execLdVxK x s = _) ∨ (_ ∧ execLdVxK x s = _)
  unfold execLdVxK
  cases s.observedKey with
  | none => exact .inr ⟨rfl, rfl⟩
  | some k => exact .inl ⟨k, rfl, rfl⟩

/-- The outcomes of `LD F, Vx` (R202). -/
theorem exec_ldF_cases (x : Reg) (s : State) :
    (∃ a, glyphAddress s.params.glyphPolicy (s.getV x) = some a ∧
      exec (.ldF x) s = .next ((s.setI a).setPc (s.pc + 2))) ∨
    (glyphAddress s.params.glyphPolicy (s.getV x) = none ∧
      exec (.ldF x) s = .next (handleError (.glyphOutOfRange (s.getV x)) s)) := by
  show (∃ a, _ ∧ execLdF x s = _) ∨ (_ ∧ execLdF x s = _)
  unfold execLdF
  cases glyphAddress s.params.glyphPolicy (s.getV x) with
  | none => exact .inr ⟨rfl, rfl⟩
  | some a => exact .inl ⟨a, rfl, rfl⟩

/-- The outcomes of `LD B, Vx` (R204). -/
theorem exec_ldB_cases (x : Reg) (s : State) :
    ((0 < 3 ∧ 4096 < s.i.toNat + 3) ∧
      exec (.ldB x) s = .next (handleError (.memOutOfBounds s.i 3) s)) ∨
    ((3 = 0 ∨ s.i.toNat + 3 ≤ 4096) ∧
      exec (.ldB x) s =
        .next ((s.writeBytes s.i.toNat (bcdDigits (s.getV x))).setPc (s.pc + 2))) := by
  show (_ ∧ execLdB x s = _) ∨ (_ ∧ execLdB x s = _)
  unfold execLdB
  exact withRange_cases _ _ _

/-- The outcomes of `LD [I], Vx` (R205). -/
theorem exec_ldMemVx_cases (x : Reg) (s : State) :
    ((0 < blockCount x ∧ 4096 < s.i.toNat + blockCount x) ∧
      exec (.ldMemVx x) s = .next (handleError (.memOutOfBounds s.i (blockCount x)) s)) ∨
    ((blockCount x = 0 ∨ s.i.toNat + blockCount x ≤ 4096) ∧
      exec (.ldMemVx x) s = .next ((advanceIndex (blockCount x)
        (s.writeBytes s.i.toNat (dumpBytes s x))).setPc (s.pc + 2))) := by
  show (_ ∧ execLdMemVx x s = _) ∨ (_ ∧ execLdMemVx x s = _)
  unfold execLdMemVx
  exact withRange_cases _ _ _

/-- The outcomes of `LD Vx, [I]` (R206). -/
theorem exec_ldVxMem_cases (x : Reg) (s : State) :
    ((0 < blockCount x ∧ 4096 < s.i.toNat + blockCount x) ∧
      exec (.ldVxMem x) s = .next (handleError (.memOutOfBounds s.i (blockCount x)) s)) ∨
    ((blockCount x = 0 ∨ s.i.toNat + blockCount x ≤ 4096) ∧
      exec (.ldVxMem x) s = .next ((advanceIndex (blockCount x)
        (s.setV (loadBlock s s.i.toNat (blockCount x) s.v))).setPc (s.pc + 2))) := by
  show (_ ∧ execLdVxMem x s = _) ∨ (_ ∧ execLdVxMem x s = _)
  unfold execLdVxMem
  exact withRange_cases _ _ _

end Sys2Proof.Machine
end

