-- ==== Sys2Proof/Laws/PerInstr.lean ====
section
/-!
SUPPORT. The family of statements made per instruction: the encoding of every instruction selects its own
row of the opcode map (30_encoding.md rule R80), and within family 0 a well-formed `SYS` leaves `CLS` and
`RET` their words (R76).
-/

namespace Sys2Proof.Laws

/-- The word of an instruction satisfies `word & mask == match` for its row (R80), and is the word of `CLS`
or `RET` only if it is that instruction. -/
def EncodingRow.Statement (i : Instr) : Prop :=
  encode i &&& opcodeMask i = opcodeMatch i ∧
    (i.wf = true → encode i = 0x00E0#16 → i = .cls) ∧ (i.wf = true → encode i = 0x00EE#16 → i = .ret)

/-- The mask of the one-operand-field families keeps the family nibble. -/
theorem and_maskFamily (f : BitVec 4) (nnn : Addr) :
    (f ++ nnn : Word) &&& 0xF000#16 = f ++ 0#12 := by
  have h : (0xF000#16 : Word) = 0xF#4 ++ 0#12 := by decide
  have hf : f &&& 0xF#4 = f := BitVec.and_allOnes
  rw [h, BitVec.and_append, hf, BitVec.and_zero]

/-- The mask of the register and byte formats keeps the family nibble. -/
theorem and_maskFamilyXkk (f x : BitVec 4) (kk : Byte) :
    (f ++ x ++ kk : Word) &&& 0xF000#16 = f ++ 0#4 ++ 0#8 := by
  have h : (0xF000#16 : Word) = 0xF#4 ++ 0#4 ++ 0#8 := by decide
  have hf : f &&& 0xF#4 = f := BitVec.and_allOnes
  rw [h, BitVec.and_append, BitVec.and_append, hf, BitVec.and_zero, BitVec.and_zero]

/-- The mask of `DRW` keeps the family nibble. -/
theorem and_maskFamilyXyn (f x y n : BitVec 4) :
    (f ++ x ++ y ++ n : Word) &&& 0xF000#16 = f ++ 0#4 ++ 0#4 ++ 0#4 := by
  have h : (0xF000#16 : Word) = 0xF#4 ++ 0#4 ++ 0#4 ++ 0#4 := by decide
  have hf : f &&& 0xF#4 = f := BitVec.and_allOnes
  rw [h, BitVec.and_append, BitVec.and_append, BitVec.and_append, hf, BitVec.and_zero,
    BitVec.and_zero, BitVec.and_zero]

/-- The mask of the register formats keeps the family and the last nibble. -/
theorem and_maskXyn (f x y n : BitVec 4) :
    (f ++ x ++ y ++ n : Word) &&& 0xF00F#16 = f ++ 0#4 ++ 0#4 ++ n := by
  have h : (0xF00F#16 : Word) = 0xF#4 ++ 0#4 ++ 0#4 ++ 0xF#4 := by decide
  have hf : f &&& 0xF#4 = f := BitVec.and_allOnes
  have hn : n &&& 0xF#4 = n := BitVec.and_allOnes
  rw [h, BitVec.and_append, BitVec.and_append, BitVec.and_append, hf, hn, BitVec.and_zero,
    BitVec.and_zero]

/-- The mask of the families E and F keeps the family and the low byte. -/
theorem and_maskXkk (f x : BitVec 4) (kk : Byte) :
    (f ++ x ++ kk : Word) &&& 0xF0FF#16 = f ++ 0#4 ++ kk := by
  have h : (0xF0FF#16 : Word) = 0xF#4 ++ 0#4 ++ 0xFF#8 := by decide
  have hf : f &&& 0xF#4 = f := BitVec.and_allOnes
  have hk : kk &&& 0xFF#8 = kk := BitVec.and_allOnes
  rw [h, BitVec.and_append, BitVec.and_append, hf, hk, BitVec.and_zero]

/-- Words of different families differ. -/
theorem ne_of_family {w u : Word} (h : opFamily w ≠ opFamily u) : w ≠ u := fun e => h (e ▸ rfl)

theorem EncodingRow.sys (nnn : Addr) : EncodingRow.Statement (.sys nnn) := by
  refine ⟨(and_maskFamily 0x0#4 nnn).trans rfl, fun hw he => ?_, fun hw he => ?_⟩
  · have : nnn = 0x0E0#12 := (family0_eq_iff nnn 0x0E0#12).1 (he.trans (by decide))
    simp [Instr.wf, this] at hw
  · have : nnn = 0x0EE#12 := (family0_eq_iff nnn 0x0EE#12).1 (he.trans (by decide))
    simp [Instr.wf, this] at hw

theorem EncodingRow.cls : EncodingRow.Statement .cls :=
  ⟨by decide, fun _ _ => rfl, fun _ h => absurd h (by decide)⟩

theorem EncodingRow.ret : EncodingRow.Statement .ret :=
  ⟨by decide, fun _ h => absurd h (by decide), fun _ _ => rfl⟩

theorem EncodingRow.jp (nnn : Addr) : EncodingRow.Statement (.jp nnn) := by
  have hf : opFamily (encode (.jp nnn)) ≠ 0x0#4 := by
    rw [encode, opFamily_nnn]; decide
  exact ⟨(and_maskFamily _ _).trans rfl, fun _ h => absurd (congrArg opFamily h) hf,
    fun _ h => absurd (congrArg opFamily h) hf⟩

theorem EncodingRow.call (nnn : Addr) : EncodingRow.Statement (.call nnn) := by
  have hf : opFamily (encode (.call nnn)) ≠ 0x0#4 := by
    rw [encode, opFamily_nnn]; decide
  exact ⟨(and_maskFamily _ _).trans rfl, fun _ h => absurd (congrArg opFamily h) hf,
    fun _ h => absurd (congrArg opFamily h) hf⟩

theorem EncodingRow.seImm (x : Reg) (kk : Byte) : EncodingRow.Statement (.seImm x kk) := by
  have hf : opFamily (encode (.seImm x kk)) ≠ 0x0#4 := by
    rw [encode, opFamily_xkk]; decide
  exact ⟨(and_maskFamilyXkk _ _ _).trans rfl, fun _ h => absurd (congrArg opFamily h) hf,
    fun _ h => absurd (congrArg opFamily h) hf⟩

theorem EncodingRow.sneImm (x : Reg) (kk : Byte) : EncodingRow.Statement (.sneImm x kk) := by
  have hf : opFamily (encode (.sneImm x kk)) ≠ 0x0#4 := by
    rw [encode, opFamily_xkk]; decide
  exact ⟨(and_maskFamilyXkk _ _ _).trans rfl, fun _ h => absurd (congrArg opFamily h) hf,
    fun _ h => absurd (congrArg opFamily h) hf⟩

theorem EncodingRow.seReg (x y : Reg) : EncodingRow.Statement (.seReg x y) := by
  have hf : opFamily (encode (.seReg x y)) ≠ 0x0#4 := by
    rw [encode, opFamily_xyn]; decide
  exact ⟨(and_maskXyn _ _ _ _).trans rfl, fun _ h => absurd (congrArg opFamily h) hf,
    fun _ h => absurd (congrArg opFamily h) hf⟩

theorem EncodingRow.ldImm (x : Reg) (kk : Byte) : EncodingRow.Statement (.ldImm x kk) := by
  have hf : opFamily (encode (.ldImm x kk)) ≠ 0x0#4 := by
    rw [encode, opFamily_xkk]; decide
  exact ⟨(and_maskFamilyXkk _ _ _).trans rfl, fun _ h => absurd (congrArg opFamily h) hf,
    fun _ h => absurd (congrArg opFamily h) hf⟩

theorem EncodingRow.addImm (x : Reg) (kk : Byte) : EncodingRow.Statement (.addImm x kk) := by
  have hf : opFamily (encode (.addImm x kk)) ≠ 0x0#4 := by
    rw [encode, opFamily_xkk]; decide
  exact ⟨(and_maskFamilyXkk _ _ _).trans rfl, fun _ h => absurd (congrArg opFamily h) hf,
    fun _ h => absurd (congrArg opFamily h) hf⟩

theorem EncodingRow.ldReg (x y : Reg) : EncodingRow.Statement (.ldReg x y) := by
  have hf : opFamily (encode (.ldReg x y)) ≠ 0x0#4 := by
    rw [encode, opFamily_xyn]; decide
  exact ⟨(and_maskXyn _ _ _ _).trans rfl, fun _ h => absurd (congrArg opFamily h) hf,
    fun _ h => absurd (congrArg opFamily h) hf⟩

theorem EncodingRow.orReg (x y : Reg) : EncodingRow.Statement (.orReg x y) := by
  have hf : opFamily (encode (.orReg x y)) ≠ 0x0#4 := by
    rw [encode, opFamily_xyn]; decide
  exact ⟨(and_maskXyn _ _ _ _).trans rfl, fun _ h => absurd (congrArg opFamily h) hf,
    fun _ h => absurd (congrArg opFamily h) hf⟩

theorem EncodingRow.andReg (x y : Reg) : EncodingRow.Statement (.andReg x y) := by
  have hf : opFamily (encode (.andReg x y)) ≠ 0x0#4 := by
    rw [encode, opFamily_xyn]; decide
  exact ⟨(and_maskXyn _ _ _ _).trans rfl, fun _ h => absurd (congrArg opFamily h) hf,
    fun _ h => absurd (congrArg opFamily h) hf⟩

theorem EncodingRow.xorReg (x y : Reg) : EncodingRow.Statement (.xorReg x y) := by
  have hf : opFamily (encode (.xorReg x y)) ≠ 0x0#4 := by
    rw [encode, opFamily_xyn]; decide
  exact ⟨(and_maskXyn _ _ _ _).trans rfl, fun _ h => absurd (congrArg opFamily h) hf,
    fun _ h => absurd (congrArg opFamily h) hf⟩

theorem EncodingRow.addReg (x y : Reg) : EncodingRow.Statement (.addReg x y) := by
  have hf : opFamily (encode (.addReg x y)) ≠ 0x0#4 := by
    rw [encode, opFamily_xyn]; decide
  exact ⟨(and_maskXyn _ _ _ _).trans rfl, fun _ h => absurd (congrArg opFamily h) hf,
    fun _ h => absurd (congrArg opFamily h) hf⟩

theorem EncodingRow.sub (x y : Reg) : EncodingRow.Statement (.sub x y) := by
  have hf : opFamily (encode (.sub x y)) ≠ 0x0#4 := by
    rw [encode, opFamily_xyn]; decide
  exact ⟨(and_maskXyn _ _ _ _).trans rfl, fun _ h => absurd (congrArg opFamily h) hf,
    fun _ h => absurd (congrArg opFamily h) hf⟩

theorem EncodingRow.shr (x y : Reg) : EncodingRow.Statement (.shr x y) := by
  have hf : opFamily (encode (.shr x y)) ≠ 0x0#4 := by
    rw [encode, opFamily_xyn]; decide
  exact ⟨(and_maskXyn _ _ _ _).trans rfl, fun _ h => absurd (congrArg opFamily h) hf,
    fun _ h => absurd (congrArg opFamily h) hf⟩

theorem EncodingRow.subn (x y : Reg) : EncodingRow.Statement (.subn x y) := by
  have hf : opFamily (encode (.subn x y)) ≠ 0x0#4 := by
    rw [encode, opFamily_xyn]; decide
  exact ⟨(and_maskXyn _ _ _ _).trans rfl, fun _ h => absurd (congrArg opFamily h) hf,
    fun _ h => absurd (congrArg opFamily h) hf⟩

theorem EncodingRow.shl (x y : Reg) : EncodingRow.Statement (.shl x y) := by
  have hf : opFamily (encode (.shl x y)) ≠ 0x0#4 := by
    rw [encode, opFamily_xyn]; decide
  exact ⟨(and_maskXyn _ _ _ _).trans rfl, fun _ h => absurd (congrArg opFamily h) hf,
    fun _ h => absurd (congrArg opFamily h) hf⟩

theorem EncodingRow.sneReg (x y : Reg) : EncodingRow.Statement (.sneReg x y) := by
  have hf : opFamily (encode (.sneReg x y)) ≠ 0x0#4 := by
    rw [encode, opFamily_xyn]; decide
  exact ⟨(and_maskXyn _ _ _ _).trans rfl, fun _ h => absurd (congrArg opFamily h) hf,
    fun _ h => absurd (congrArg opFamily h) hf⟩

theorem EncodingRow.ldI (nnn : Addr) : EncodingRow.Statement (.ldI nnn) := by
  have hf : opFamily (encode (.ldI nnn)) ≠ 0x0#4 := by
    rw [encode, opFamily_nnn]; decide
  exact ⟨(and_maskFamily _ _).trans rfl, fun _ h => absurd (congrArg opFamily h) hf,
    fun _ h => absurd (congrArg opFamily h) hf⟩

theorem EncodingRow.jpV0 (nnn : Addr) : EncodingRow.Statement (.jpV0 nnn) := by
  have hf : opFamily (encode (.jpV0 nnn)) ≠ 0x0#4 := by
    rw [encode, opFamily_nnn]; decide
  exact ⟨(and_maskFamily _ _).trans rfl, fun _ h => absurd (congrArg opFamily h) hf,
    fun _ h => absurd (congrArg opFamily h) hf⟩

theorem EncodingRow.rnd (x : Reg) (kk : Byte) : EncodingRow.Statement (.rnd x kk) := by
  have hf : opFamily (encode (.rnd x kk)) ≠ 0x0#4 := by
    rw [encode, opFamily_xkk]; decide
  exact ⟨(and_maskFamilyXkk _ _ _).trans rfl, fun _ h => absurd (congrArg opFamily h) hf,
    fun _ h => absurd (congrArg opFamily h) hf⟩

theorem EncodingRow.drw (x y : Reg) (n : Nibble) : EncodingRow.Statement (.drw x y n) := by
  have hf : opFamily (encode (.drw x y n)) ≠ 0x0#4 := by
    rw [encode, opFamily_xyn]; decide
  exact ⟨(and_maskFamilyXyn _ _ _ _).trans rfl, fun _ h => absurd (congrArg opFamily h) hf,
    fun _ h => absurd (congrArg opFamily h) hf⟩

theorem EncodingRow.skp (x : Reg) : EncodingRow.Statement (.skp x) := by
  have hf : opFamily (encode (.skp x)) ≠ 0x0#4 := by
    rw [encode, opFamily_xkk]; decide
  exact ⟨(and_maskXkk _ _ _).trans rfl, fun _ h => absurd (congrArg opFamily h) hf,
    fun _ h => absurd (congrArg opFamily h) hf⟩

theorem EncodingRow.sknp (x : Reg) : EncodingRow.Statement (.sknp x) := by
  have hf : opFamily (encode (.sknp x)) ≠ 0x0#4 := by
    rw [encode, opFamily_xkk]; decide
  exact ⟨(and_maskXkk _ _ _).trans rfl, fun _ h => absurd (congrArg opFamily h) hf,
    fun _ h => absurd (congrArg opFamily h) hf⟩

theorem EncodingRow.ldVxDt (x : Reg) : EncodingRow.Statement (.ldVxDt x) := by
  have hf : opFamily (encode (.ldVxDt x)) ≠ 0x0#4 := by
    rw [encode, opFamily_xkk]; decide
  exact ⟨(and_maskXkk _ _ _).trans rfl, fun _ h => absurd (congrArg opFamily h) hf,
    fun _ h => absurd (congrArg opFamily h) hf⟩

theorem EncodingRow.ldVxK (x : Reg) : EncodingRow.Statement (.ldVxK x) := by
  have hf : opFamily (encode (.ldVxK x)) ≠ 0x0#4 := by
    rw [encode, opFamily_xkk]; decide
  exact ⟨(and_maskXkk _ _ _).trans rfl, fun _ h => absurd (congrArg opFamily h) hf,
    fun _ h => absurd (congrArg opFamily h) hf⟩

theorem EncodingRow.ldDtVx (x : Reg) : EncodingRow.Statement (.ldDtVx x) := by
  have hf : opFamily (encode (.ldDtVx x)) ≠ 0x0#4 := by
    rw [encode, opFamily_xkk]; decide
  exact ⟨(and_maskXkk _ _ _).trans rfl, fun _ h => absurd (congrArg opFamily h) hf,
    fun _ h => absurd (congrArg opFamily h) hf⟩

theorem EncodingRow.ldStVx (x : Reg) : EncodingRow.Statement (.ldStVx x) := by
  have hf : opFamily (encode (.ldStVx x)) ≠ 0x0#4 := by
    rw [encode, opFamily_xkk]; decide
  exact ⟨(and_maskXkk _ _ _).trans rfl, fun _ h => absurd (congrArg opFamily h) hf,
    fun _ h => absurd (congrArg opFamily h) hf⟩

theorem EncodingRow.addI (x : Reg) : EncodingRow.Statement (.addI x) := by
  have hf : opFamily (encode (.addI x)) ≠ 0x0#4 := by
    rw [encode, opFamily_xkk]; decide
  exact ⟨(and_maskXkk _ _ _).trans rfl, fun _ h => absurd (congrArg opFamily h) hf,
    fun _ h => absurd (congrArg opFamily h) hf⟩

theorem EncodingRow.ldF (x : Reg) : EncodingRow.Statement (.ldF x) := by
  have hf : opFamily (encode (.ldF x)) ≠ 0x0#4 := by
    rw [encode, opFamily_xkk]; decide
  exact ⟨(and_maskXkk _ _ _).trans rfl, fun _ h => absurd (congrArg opFamily h) hf,
    fun _ h => absurd (congrArg opFamily h) hf⟩

theorem EncodingRow.ldB (x : Reg) : EncodingRow.Statement (.ldB x) := by
  have hf : opFamily (encode (.ldB x)) ≠ 0x0#4 := by
    rw [encode, opFamily_xkk]; decide
  exact ⟨(and_maskXkk _ _ _).trans rfl, fun _ h => absurd (congrArg opFamily h) hf,
    fun _ h => absurd (congrArg opFamily h) hf⟩

theorem EncodingRow.ldMemVx (x : Reg) : EncodingRow.Statement (.ldMemVx x) := by
  have hf : opFamily (encode (.ldMemVx x)) ≠ 0x0#4 := by
    rw [encode, opFamily_xkk]; decide
  exact ⟨(and_maskXkk _ _ _).trans rfl, fun _ h => absurd (congrArg opFamily h) hf,
    fun _ h => absurd (congrArg opFamily h) hf⟩

theorem EncodingRow.ldVxMem (x : Reg) : EncodingRow.Statement (.ldVxMem x) := by
  have hf : opFamily (encode (.ldVxMem x)) ≠ 0x0#4 := by
    rw [encode, opFamily_xkk]; decide
  exact ⟨(and_maskXkk _ _ _).trans rfl, fun _ h => absurd (congrArg opFamily h) hf,
    fun _ h => absurd (congrArg opFamily h) hf⟩

end Sys2Proof.Laws
end

