-- ==== Sys2Proof/Tests/Slice0.lean ====
section
/-!
SUPPORT. The model's own tests. Expected values are those of 95_test_vectors.md, whose vector each test
names, or worked out by hand from the rule it names. Then, for every obligation with hypotheses, a named
witness that meets all of them together, at the boundary of each clause.
-/

namespace Sys2Proof.Tests

set_option Elab.async false

open Sys2Proof Sys2Proof.Machine

/-! ## Helpers -/

/-- The start state of the vectors. -/
def start : State := State.reset

/-- One step of `s` with the word placed where it fetches. -/
def stepped (w : Word) (s : State) : Outcome := step (s.withFetchWord 16 w.toNat)

/-- The outcome is a next state with the property. -/
def nextIs (o : Outcome) (p : State → Bool) : Bool :=
  match o with
  | .next t => p t
  | .fault _ => false
  | .refused _ => false

/-- The outcome is the fault. -/
def faultIs (o : Outcome) (f : Fault) : Bool :=
  match o with
  | .next _ => false
  | .fault g => g == f
  | .refused _ => false

/-- The outcome is the refusal. -/
def refusalIs (o : Outcome) (r : Refusal) : Bool :=
  match o with
  | .next _ => false
  | .fault _ => false
  | .refused q => q == r

/-- The next state of an outcome. -/
def nextOf (o : Outcome) : State :=
  match o with
  | .next t => t
  | .fault _ => start
  | .refused _ => start

/-- `V1`, `V2` and `VF` set. -/
def regs (v1 v2 f : Byte) : State := ((start.putV 1 v1).putV 2 v2).putV 0xF f

/-- `I` set and bytes of memory from there on. -/
def at_ (i : Word) (bytes : List Byte) (s : State) : State := (s.setI i).writeBytes i.toNat bytes

/-- One pixel turned over. -/
def lit (r : Fin 32) (c : Fin 64) (s : State) : State := s.setDisplay (s.display.toggle r c)

/-- Exactly these pixels are ON: so many are, and each of these is. -/
def onlyOn (ps : List (Fin 32 × Fin 64)) (t : State) : Bool :=
  (displayQuery t).count true == ps.length && ps.all fun p => t.display.pixel p.1 p.2

/-- `V0` to `VF` hold 1 to 16. -/
def counting : State := start.setV #v[1, 2, 3, 4, 5, 6, 7, 8, 9, 10, 11, 12, 13, 14, 15, 16]

def snapshotMode (s : State) : State :=
  { s with params := { s.params with aluReadMode := .snapshot } }

def shiftVy (s : State) : State := { s with params := { s.params with shiftSource := .vy } }

def skipPolicy (s : State) : State := { s with params := { s.params with errorPolicy := .skip } }

def keyDownSource (s : State) : State := { s with params := { s.params with skpKeySource := .keyDown } }

def hostTicks (s : State) : State := { s with params := { s.params with timerTickInCycle := false } }

def glyphs (p : GlyphPolicy) (s : State) : State := { s with params := { s.params with glyphPolicy := p } }

/-- Halted at its instruction with the error. -/
def haltsWith (e : Error) (pc : Word) (t : State) : Bool :=
  t.run == .halted e && t.lastError == some e && t.pc == pc

/-! ## Well-formedness: an ill-formed term for each check -/

theorem test_wf_sys_cls_word : (Instr.sys 0x0E0).wf = false := by decide
theorem test_wf_sys_ret_word : (Instr.sys 0x0EE).wf = false := by decide
theorem test_wf_sys_next_word : (Instr.sys 0x0E1).wf = true := by decide

/-! ## Decoding: words written out field by field from the formats of R73 and R80 -/

theorem test_decode_family_0 :
    decode 0b0000000011100000#16 = .instr .cls ∧ decode 0b0000000011101110#16 = .instr .ret ∧
    decode 0b0000000100100011#16 = .instr (.sys 0x123) ∧ decode 0x0000#16 = .instr (.sys 0) ∧
    decode 0x00E1#16 = .instr (.sys 0x0E1) := by decide
theorem test_decode_family_1_to_4 :
    decode 0b0001001000110100#16 = .instr (.jp 0x234) ∧
    decode 0b0010001000001010#16 = .instr (.call 0x20A) ∧
    decode 0b0011001101000010#16 = .instr (.seImm 3 0x42) ∧
    decode 0b0100001101000010#16 = .instr (.sneImm 3 0x42) := by decide
theorem test_decode_family_5_6_7 :
    decode 0b0101000100100000#16 = .instr (.seReg 1 2) ∧
    decode 0b0101000000000001#16 = .unsupported 0x5001#16 ∧
    decode 0b0110101000101111#16 = .instr (.ldImm 0xA 0x2F) ∧
    decode 0b0111000111111111#16 = .instr (.addImm 1 0xFF) := by decide
theorem test_decode_family_8_logic :
    decode 0b1000000100100000#16 = .instr (.ldReg 1 2) ∧ decode 0x8121#16 = .instr (.orReg 1 2) ∧
    decode 0x8122#16 = .instr (.andReg 1 2) ∧ decode 0x8123#16 = .instr (.xorReg 1 2) ∧
    decode 0x8008#16 = .unsupported 0x8008#16 := by decide
theorem test_decode_family_8_flags :
    decode 0b1000000100100100#16 = .instr (.addReg 1 2) ∧ decode 0x8125#16 = .instr (.sub 1 2) ∧
    decode 0x8126#16 = .instr (.shr 1 2) ∧ decode 0x8127#16 = .instr (.subn 1 2) ∧
    decode 0x812E#16 = .instr (.shl 1 2) ∧ decode 0x800F#16 = .unsupported 0x800F#16 := by decide
theorem test_decode_family_9_to_D :
    decode 0b1001000100100000#16 = .instr (.sneReg 1 2) ∧ decode 0x9001#16 = .unsupported 0x9001#16 ∧
    decode 0b1010001100000000#16 = .instr (.ldI 0x300) ∧
    decode 0b1011000100100011#16 = .instr (.jpV0 0x123) ∧
    decode 0b1100001100001111#16 = .instr (.rnd 3 0x0F) ∧
    decode 0b1101000100100000#16 = .instr (.drw 1 2 0) := by decide
theorem test_decode_family_E :
    decode 0b1110000010011110#16 = .instr (.skp 0) ∧ decode 0b1110000010100001#16 = .instr (.sknp 0) ∧
    decode 0xE09F#16 = .unsupported 0xE09F#16 ∧ decode 0xE000#16 = .unsupported 0xE000#16 := by decide
theorem test_decode_family_F_timers :
    decode 0b1111000000000111#16 = .instr (.ldVxDt 0) ∧ decode 0xF50A#16 = .instr (.ldVxK 5) ∧
    decode 0xF015#16 = .instr (.ldDtVx 0) ∧ decode 0xF018#16 = .instr (.ldStVx 0) ∧
    decode 0xF01E#16 = .instr (.addI 0) := by decide
theorem test_decode_family_F_memory :
    decode 0xF429#16 = .instr (.ldF 4) ∧ decode 0xF033#16 = .instr (.ldB 0) ∧
    decode 0xFF55#16 = .instr (.ldMemVx 0xF) ∧ decode 0xF065#16 = .instr (.ldVxMem 0) ∧
    decode 0xF066#16 = .unsupported 0xF066#16 ∧ decode 0xF000#16 = .unsupported 0xF000#16 := by decide

/-- The high byte of a word is the byte at the lower address (R53). -/
theorem test_byte_order :
    bytesOfOpcode 0x6A2F#16 = [0x6A, 0x2F] ∧ decodeBytes 0x6A 0x2F = .instr (.ldImm 0xA 0x2F) ∧
    decodeTableWord 16 0x6A2F = some (.ldImm 0xA 0x2F) ∧ decodeTableWord 16 0x5001 = none := by decide

/-! ## The cycle -/

/-- CYC-2, second cycle. -/
theorem test_fetch_at_fff : nextIs (step (start.setPc 0xFFF))
    (fun t => t.run == .terminated && t.lastError == none && t.pc == 0xFFF) = true := by decide +kernel
/-- CYC-3, second cycle: the fetch at 0xFFE is inside memory. -/
theorem test_fetch_at_ffe : nextIs (step (start.setPc 0xFFE))
    (haltsWith (.sysNotExecutable 0) 0xFFE) = true := by decide +kernel
/-- CYC-4. -/
theorem test_tick_before_execute : nextIs (stepped 0x1200 (start.setDt 5))
    (fun t => t.dt == 4 && t.pc == 0x200) = true := by decide +kernel
/-- CYC-5. -/
theorem test_no_tick_in_cycle : nextIs (stepped 0x1200 (hostTicks (start.setDt 5)))
    (fun t => t.dt == 5 && t.pc == 0x200) = true := by decide +kernel
/-- CYC-6. -/
theorem test_sound_expires : nextIs (stepped 0x1200 (start.setSt 1))
    (fun t => t.st == 0 && t.soundExpired && t.pc == 0x200) = true := by decide +kernel
/-- E8. -/
theorem test_timers_stay_at_zero : nextIs (stepped 0xF007 start)
    (fun t => t.getV 0 == 0 && t.dt == 0 && t.st == 0 && !t.soundExpired) = true := by decide +kernel
/-- CYC-7. -/
theorem test_waiting_cycle : nextIs (step ((start.setWait (some 2)).setDt 3))
    (fun t => t.dt == 2 && t.wait == some 2 && t.pc == 0x200 && t.run == .running) = true := by
  decide +kernel
/-- CYC-8. -/
theorem test_key_ends_the_wait : nextIs (step ((start.setWait (some 2)).setObservedKey (some 9)))
    (fun t => t.getV 2 == 9 && t.wait == none && t.pc == 0x202 && t.observedKey == some 9) = true := by
  decide +kernel

/-! ## Control flow -/

/-- CF-13. -/
theorem test_sys : nextIs (stepped 0x0123 start) (haltsWith (.sysNotExecutable 0x123) 0x200) = true := by
  decide +kernel
/-- CF-14. -/
theorem test_sys_skip_policy : nextIs (stepped 0x0123 (skipPolicy start))
    (fun t => t.lastError == some (.sysNotExecutable 0x123) && t.pc == 0x202 && t.run == .running) = true := by
  decide +kernel
/-- E9. -/
theorem test_jp : nextIs (stepped 0x1234 start) (fun t => t.pc == 0x234) = true := by decide +kernel
/-- CF-9. -/
theorem test_call : nextIs (stepped 0x220A start)
    (fun t => t.stack[0] == 0x200 && t.sp == 1 && t.pc == 0x20A) = true := by decide +kernel
/-- ERR-6. -/
theorem test_call_full : nextIs (stepped 0x2300 (start.setSp 16))
    (fun t => haltsWith .stackOverflow 0x200 t && t.sp == 16 && t.stack == start.stack) = true := by
  decide +kernel
/-- CF-10. -/
theorem test_ret : nextIs (stepped 0x00EE ((start.setStack (start.stack.set 0 0x204)).setSp 1))
    (fun t => t.sp == 0 && t.pc == 0x206 && t.stack[0] == 0x204) = true := by decide +kernel
/-- ERR-5. -/
theorem test_ret_empty_skip_policy : nextIs (stepped 0x00EE (skipPolicy start))
    (haltsWith .stackUnderflow 0x200) = true := by decide +kernel
/-- CF-1 and CF-2. -/
theorem test_se_imm :
    nextIs (stepped 0x3342 (start.putV 3 0x42)) (fun t => t.pc == 0x204) = true ∧
    nextIs (stepped 0x3342 (start.putV 3 0x41)) (fun t => t.pc == 0x202) = true := by decide +kernel
/-- CF-3 and CF-4. -/
theorem test_sne_imm :
    nextIs (stepped 0x4342 (start.putV 3 0x42)) (fun t => t.pc == 0x202) = true ∧
    nextIs (stepped 0x4342 (start.putV 3 0x41)) (fun t => t.pc == 0x204) = true := by decide +kernel
/-- CF-5 and CF-6. -/
theorem test_se_reg :
    nextIs (stepped 0x5120 (regs 7 7 0)) (fun t => t.pc == 0x204) = true ∧
    nextIs (stepped 0x5330 start) (fun t => t.pc == 0x204) = true := by decide +kernel
/-- CF-7 and CF-8. -/
theorem test_sne_reg :
    nextIs (stepped 0x9120 (regs 7 8 0)) (fun t => t.pc == 0x204) = true ∧
    nextIs (stepped 0x9330 start) (fun t => t.pc == 0x202) = true := by decide +kernel
/-- CF-11. -/
theorem test_jp_v0 : nextIs (stepped 0xB300 (start.putV 0 0x10)) (fun t => t.pc == 0x310) = true := by
  decide +kernel
/-- CF-12. -/
theorem test_jp_v0_unreduced : nextIs (stepped 0xBFFF (start.putV 0 0xFF))
    (fun t => t.pc == 0x10FE && nextIs (step t) (fun u => u.run == .terminated)) = true := by
  decide +kernel

/-! ## Arithmetic and logic -/

/-- ALU-1. -/
theorem test_ld_imm : nextIs (stepped 0x6A2F start) (fun t => t.getV 0xA == 0x2F && t.pc == 0x202) = true := by
  decide +kernel
/-- ALU-2. -/
theorem test_add_imm : nextIs (stepped 0x71FF (regs 5 0 0)) (fun t => t.getV 1 == 4) = true := by
  decide +kernel
/-- ALU-3. -/
theorem test_add_imm_no_flag : nextIs (stepped 0x7101 (regs 0xFF 0 7))
    (fun t => t.getV 1 == 0 && t.getV 0xF == 7) = true := by decide +kernel
/-- ALU-4. -/
theorem test_ld_reg : nextIs (stepped 0x8120 (regs 0 0x33 0)) (fun t => t.getV 1 == 0x33) = true := by
  decide +kernel
/-- ALU-5. -/
theorem test_or : nextIs (stepped 0x8121 (regs 0x0F 0xF0 0x55))
    (fun t => t.getV 1 == 0xFF && t.getV 0xF == 0x55) = true := by decide +kernel
/-- ALU-6. -/
theorem test_and : nextIs (stepped 0x8122 (regs 0x3C 0x0F 0)) (fun t => t.getV 1 == 0x0C) = true := by
  decide +kernel
/-- ALU-7 and ALU-8. -/
theorem test_xor :
    nextIs (stepped 0x8123 (regs 0x3C 0x0F 0)) (fun t => t.getV 1 == 0x33) = true ∧
    nextIs (stepped 0x8113 (regs 0x3C 0 0)) (fun t => t.getV 1 == 0) = true := by decide +kernel
/-- E1. -/
theorem test_add_reg :
    nextIs (stepped 0x8124 (regs 0xFF 1 0)) (fun t => t.getV 1 == 0 && t.getV 0xF == 1) = true ∧
    nextIs (stepped 0x8124 (regs 0x80 0x7F 1)) (fun t => t.getV 1 == 0xFF && t.getV 0xF == 0) = true := by
  decide +kernel
/-- ALU-10, ALU-12 and ALU-14 in both read modes: `VF` as destination, as operand and as both. -/
theorem test_add_reg_aliases :
    nextIs (stepped 0x8F24 (regs 0 0x20 0x10)) (fun t => t.getV 0xF == 0x20) = true ∧
    nextIs (stepped 0x8F24 (snapshotMode (regs 0 0x20 0x10))) (fun t => t.getV 0xF == 0x30) = true ∧
    nextIs (stepped 0x81F4 (snapshotMode (regs 0x10 0 5)))
      (fun t => t.getV 1 == 0x15 && t.getV 0xF == 0) = true ∧
    nextIs (stepped 0x8FF4 (regs 0 0 0x7F)) (fun t => t.getV 0xF == 0) = true := by decide +kernel
/-- E2. -/
theorem test_sub :
    nextIs (stepped 0x8125 (regs 1 2 1)) (fun t => t.getV 1 == 0xFF && t.getV 0xF == 0) = true ∧
    nextIs (stepped 0x8125 (regs 5 5 0)) (fun t => t.getV 1 == 0 && t.getV 0xF == 1) = true := by
  decide +kernel
/-- ALU-15 and ALU-17 in both read modes. -/
theorem test_sub_aliases :
    nextIs (stepped 0x8F25 (regs 0 1 0x10)) (fun t => t.getV 0xF == 0) = true ∧
    nextIs (stepped 0x8F25 (snapshotMode (regs 0 1 0x10))) (fun t => t.getV 0xF == 0x0F) = true ∧
    nextIs (stepped 0x81F5 (regs 0x10 0 0x20)) (fun t => t.getV 1 == 0x10 && t.getV 0xF == 0) = true := by
  decide +kernel
/-- ALU-24, ALU-26 and ALU-32. -/
theorem test_shr :
    nextIs (stepped 0x8106 (regs 5 0 0)) (fun t => t.getV 1 == 2 && t.getV 0xF == 1) = true ∧
    nextIs (stepped 0x8F06 (snapshotMode (regs 0 0 3))) (fun t => t.getV 0xF == 1) = true := by
  decide +kernel
theorem test_shr_source :
    nextIs (stepped 0x8126 (regs 4 3 9)) (fun t => t.getV 1 == 2 && t.getV 0xF == 0) = true ∧
    nextIs (stepped 0x8126 (shiftVy (regs 4 3 9))) (fun t => t.getV 1 == 1 && t.getV 0xF == 1) = true := by
  decide +kernel
/-- ALU-19 and ALU-20. -/
theorem test_subn :
    nextIs (stepped 0x8127 (regs 5 3 9)) (fun t => t.getV 1 == 0xFE && t.getV 0xF == 0) = true ∧
    nextIs (stepped 0x8127 (regs 3 5 9)) (fun t => t.getV 1 == 2 && t.getV 0xF == 1) = true := by
  decide +kernel
/-- ALU-21 and ALU-22. -/
theorem test_subn_aliases :
    nextIs (stepped 0x8F27 (regs 0 5 3)) (fun t => t.getV 0xF == 4) = true ∧
    nextIs (stepped 0x81F7 (snapshotMode (regs 3 0 5)))
      (fun t => t.getV 1 == 2 && t.getV 0xF == 1) = true := by decide +kernel
/-- ALU-27 and ALU-29. -/
theorem test_shl :
    nextIs (stepped 0x810E (regs 0x81 0 0)) (fun t => t.getV 1 == 2 && t.getV 0xF == 1) = true ∧
    nextIs (stepped 0x8F0E (regs 0 0 0xC0)) (fun t => t.getV 0xF == 2) = true := by decide +kernel
/-- ALU-33. -/
theorem test_shl_source :
    nextIs (stepped 0x812E (regs 1 0x80 9)) (fun t => t.getV 1 == 2 && t.getV 0xF == 0) = true ∧
    nextIs (stepped 0x812E (shiftVy (regs 1 0x80 9))) (fun t => t.getV 1 == 0 && t.getV 0xF == 1) = true := by
  decide +kernel
/-- ALU-31, for every random byte. -/
theorem test_rnd_zero_mask :
    ∃ t, stepped 0xC300 start = .next t ∧ t.getV 3 = 0 ∧ t.pc = 0x202 ∧ t.draws = 1 :=
  ⟨_, rfl, (State.getV_putV_self _ _ _).trans (BitVec.and_zero), rfl, rfl⟩

/-! ## Display -/

/-- DRW-10. -/
theorem test_cls : nextIs (stepped 0x00E0 (lit 31 63 (regs 0 0 7)))
    (fun t => onlyOn [] t && t.getV 0xF == 7) = true := by decide +kernel
/-- DRW-1, DRW-2, DRW-4 (the rows wrap) and DRW-6 (the position is read before `VF` is written). -/
theorem test_drw :
    nextIs (stepped 0xD011 (at_ 0x300 [0x80] start))
      (fun t => onlyOn [(0, 0)] t && t.getV 0xF == 0) = true ∧
    nextIs (stepped 0xD011 (lit 0 0 (at_ 0x300 [0x80] start)))
      (fun t => onlyOn [] t && t.getV 0xF == 1) = true ∧
    nextIs (stepped 0xD012 (lit 31 0 ((at_ 0x300 [0xF0, 0x90] start).putV 1 0x1F)))
      (fun t => onlyOn [(31, 1), (31, 2), (31, 3), (0, 0), (0, 3)] t && t.getV 0xF == 1) = true ∧
    nextIs (stepped 0xDF11 (lit 2 4 (((at_ 0x300 [0xC0] start).putV 0xF 3).putV 1 2)))
      (fun t => onlyOn [(2, 3)] t && t.getV 0xF == 1) = true := by decide +kernel
/-- DRW-8 and DRW-7. -/
theorem test_drw_range :
    nextIs (stepped 0xD013 (at_ 0xFFE [0xFF, 0xFF] start))
      (fun t => haltsWith (.memOutOfBounds 0xFFE 3) 0x200 t && onlyOn [] t) = true ∧
    nextIs (stepped 0xD010 ((start.putV 0xF 7).setI 0xFFF))
      (fun t => onlyOn [] t && t.getV 0xF == 0 && t.pc == 0x202) = true := by decide +kernel

/-! ## Timers and keypad -/

/-- KT-6, KT-7 and KT-11. -/
theorem test_skp :
    nextIs (stepped 0xE09E ((start.putV 0 0xA).setObservedKey (some 0xA))) (fun t => t.pc == 0x204) = true ∧
    nextIs (stepped 0xE09E (start.putV 0 0xA)) (fun t => t.pc == 0x202) = true ∧
    nextIs (stepped 0xE09E ((start.putV 0 0x1A).setObservedKey (some 0xA)))
      (fun t => t.pc == 0x202) = true := by decide +kernel
/-- KT-13. -/
theorem test_skp_key_down :
    nextIs (stepped 0xE09E (setKey 5 true (start.putV 0 5))) (fun t => t.pc == 0x202) = true ∧
    nextIs (stepped 0xE09E (keyDownSource (setKey 5 true (start.putV 0 5)))) (fun t => t.pc == 0x204) = true := by
  decide +kernel
/-- KT-9, KT-10 and KT-12. -/
theorem test_sknp :
    nextIs (stepped 0xE0A1 ((start.putV 0 0xA).setObservedKey (some 0xA))) (fun t => t.pc == 0x202) = true ∧
    nextIs (stepped 0xE0A1 (start.putV 0 0xA)) (fun t => t.pc == 0x204) = true ∧
    nextIs (stepped 0xE0A1 (start.putV 0 0x1A)) (fun t => t.pc == 0x204) = true := by decide +kernel
/-- KT-1. -/
theorem test_ld_vx_dt : nextIs (stepped 0xF007 (start.setDt 0x11))
    (fun t => t.dt == 0x10 && t.getV 0 == 0x10) = true := by decide +kernel
/-- KT-14. -/
theorem test_ld_vx_k_at_once : nextIs (stepped 0xF50A (start.setObservedKey (some 7)))
    (fun t => t.getV 5 == 7 && t.pc == 0x202 && t.wait == none) = true := by decide +kernel
/-- KT-15. -/
theorem test_ld_vx_k_waits : nextIs (stepped 0xF50A start)
    (fun t => t.wait == some 5 && t.pc == 0x200) = true := by decide +kernel
/-- KT-3. -/
theorem test_ld_dt_vx : nextIs (stepped 0xF015 (start.putV 0 5)) (fun t => t.dt == 5) = true := by
  decide +kernel
/-- KT-4, first cycle. -/
theorem test_ld_st_vx : nextIs (stepped 0xF018 (start.putV 0 1))
    (fun t => t.st == 1 && !t.soundExpired) = true := by decide +kernel

/-! ## Index register and memory -/

/-- IM-1. -/
theorem test_ld_i : nextIs (stepped 0xA300 start) (fun t => t.i == 0x300) = true := by decide +kernel
/-- IM-2 and IM-3. -/
theorem test_add_i :
    nextIs (stepped 0xF01E ((start.putV 0 1).setI 0xFFF))
      (fun t => t.i == 0x1000 && t.getV 0xF == 0 && t.run == .running) = true ∧
    nextIs (stepped 0xF01E ((start.putV 0 1).setI 0xFFFF)) (fun t => t.i == 0) = true := by
  decide +kernel
/-- IM-4 and IM-5. -/
theorem test_ld_f :
    nextIs (stepped 0xF429 (start.putV 4 0xA)) (fun t => t.i == 0x32) = true ∧
    nextIs (stepped 0xF429 (start.putV 4 0x10))
      (fun t => haltsWith (.glyphOutOfRange 0x10) 0x200 t && t.i == 0) = true := by decide +kernel
/-- IM-6 and IM-7. -/
theorem test_ld_f_policies :
    nextIs (stepped 0xF429 (glyphs .mask (start.putV 4 0x10))) (fun t => t.i == 0) = true ∧
    nextIs (stepped 0xF429 (glyphs .multiply (start.putV 4 0x10))) (fun t => t.i == 0x50) = true := by
  decide +kernel
/-- IM-8. -/
theorem test_ld_b : nextIs (stepped 0xF033 ((start.putV 0 0xFF).setI 0xFFD))
    (fun t => t.mem == [(0x200, 0xF0), (0x201, 0x33), (0xFFD, 2), (0xFFE, 5), (0xFFF, 5)]) = true := by
  decide +kernel
/-- IM-9. -/
theorem test_ld_b_out_of_range : nextIs (stepped 0xF033 ((start.putV 0 0xFF).setI 0xFFE))
    (fun t => haltsWith (.memOutOfBounds 0xFFE 3) 0x200 t && t.readByte 0xFFE == 0) = true := by
  decide +kernel
/-- IM-11. -/
theorem test_ld_mem_vx : nextIs (stepped 0xFF55 (counting.setI 0xFF0))
    (fun t => t.readByte 0xFF0 == 1 && t.readByte 0xFFF == 16 && t.i == 0x1000) = true := by
  decide +kernel
/-- IM-12. -/
theorem test_ld_mem_vx_out_of_range : nextIs (stepped 0xFF55 (counting.setI 0xFF1))
    (fun t => haltsWith (.memOutOfBounds 0xFF1 16) 0x200 t && t.readByte 0xFF1 == 0 && t.i == 0xFF1) = true := by
  decide +kernel
/-- IM-13: the glyph 0 bytes of the fontset. -/
theorem test_ld_vx_mem_fontset : nextIs (stepped 0xF465 start)
    (fun t => t.getV 0 == 0xF0 && t.getV 1 == 0x90 && t.getV 4 == 0xF0 && t.getV 5 == 0 && t.i == 5) = true := by
  decide +kernel
/-- IM-14. -/
theorem test_ld_vx_mem : nextIs (stepped 0xF265 (at_ 0x300 [1, 5, 7] start))
    (fun t => t.getV 0 == 1 && t.getV 1 == 5 && t.getV 2 == 7 && t.i == 0x303) = true := by
  decide +kernel

/-! ## Errors, ports and reset -/

/-- ERR-1. -/
theorem test_unsupported_halts : nextIs (stepped 0x5001 start) (haltsWith (.unsupported 0x5001) 0x200) = true := by
  decide +kernel
/-- ERR-2. -/
theorem test_unsupported_skips : nextIs (stepped 0x5001 (skipPolicy start))
    (fun t => t.lastError == some (.unsupported 0x5001) && t.pc == 0x202 && t.run == .running) = true := by
  decide +kernel
/-- ERR-7. -/
theorem test_error_keeps_the_tick : nextIs (stepped 0x5001 (start.setDt 3))
    (fun t => haltsWith (.unsupported 0x5001) 0x200 t && t.dt == 2) = true := by decide +kernel
/-- ERR-8. -/
theorem test_rom_too_large (rom : List Byte) (h : rom.length = 3585) :
    loadRom rom start = .fault (.romTooLarge 3585) := by
  simp [loadRom, start, State.reset, romCapacity, memorySize, programStart, h]
/-- ERR-9. -/
theorem test_rom_largest (rom : List Byte) (h : rom.length = 3584) : ∃ t, loadRom rom start = .next t := by
  simp [loadRom, start, State.reset, romCapacity, memorySize, programStart, h]
/-- R252: the ROM starts at 0x200. -/
theorem test_rom_load : nextIs (loadRom [0x6A, 0x2F] start)
    (fun t => t.mem == [(0x200, 0x6A), (0x201, 0x2F)]) = true := by decide +kernel
/-- R252: no load after the first cycle. -/
theorem test_rom_load_late : refusalIs (loadRom [1] (start.setCycled true)) .romLoadAfterFirstCycle = true := by
  decide +kernel
/-- R180 as a host event. -/
theorem test_host_tick :
    nextIs (hostTick (hostTicks ((start.setDt 5).setSt 1)))
      (fun t => t.dt == 4 && t.st == 0 && t.soundExpired) = true ∧
    refusalIs (hostTick start) .hostTickWithTickInCycle = true := by decide +kernel
/-- R240: row-major. -/
theorem test_display_query : (displayQuery (lit 1 6 start)).getD 70 false = true := by decide +kernel
/-- RST-1 and RST-2. -/
theorem test_reset_memory :
    (dump start).memory.take 5 = [0xF0, 0x90, 0x90, 0x90, 0xF0] ∧ start.readByte 0x04F = 0x80 ∧
    start.readByte 0x050 = 0 ∧ start.readByte 0x1FF = 0 ∧ start.readByte 0xFFF = 0 := by decide +kernel

/-! ## Witnesses: states and operands that meet the hypotheses of each obligation together -/

theorem witness_DecodeOfEncodeIsTheInstruction : (Instr.drw 0xF 0xF 0xF).wf = true ∧ (Instr.sys 0xFFF).wf = true := by
  decide
theorem witness_EncodeOfDecodedIsTheWord : decode 0xDFFF#16 = .instr (.drw 0xF 0xF 0xF) := by decide
theorem witness_DecodedWordMatchesItsRow : decode 0xFF65#16 = .instr (.ldVxMem 0xF) := by decide
theorem witness_UnsupportedWordsExactly :
    decode 0x5FF1#16 = .unsupported 0x5FF1#16 ∧ decode 0x8FFF#16 = .unsupported 0x8FFF#16 ∧
    decode 0x9FFF#16 = .unsupported 0x9FFF#16 ∧ decode 0xEFFF#16 = .unsupported 0xEFFF#16 ∧
    decode 0xFFFF#16 = .unsupported 0xFFFF#16 := by decide

theorem witness_FamilyEightDecodes :
    0x8#4 ∈ [0x8#4, 0x9#4, 0xA#4, 0xB#4, 0xC#4, 0xD#4, 0xF#4] ∧
    0xF#4 ∈ [0x8#4, 0x9#4, 0xA#4, 0xB#4, 0xC#4, 0xD#4, 0xF#4] := by decide

/-- `JP 000` at the last address a fetch can use. -/
def lastFetch : State := (start.setPc 0xFFE).withFetchWord 16 0x1000

theorem witness_StepRunsTheDecodedInstruction :
    lastFetch.run = .running ∧ lastFetch.wait = none ∧ lastFetch.pc.toNat ≤ 0xFFE ∧
    decode (lastFetch.readByte lastFetch.pc.toNat ++ lastFetch.readByte (lastFetch.pc.toNat + 1)) =
      .instr (.jp 0) := by decide +kernel
theorem witness_FetchOffTheEndTerminates :
    (start.setPc 0xFFF).run = .running ∧ (start.setPc 0xFFF).wait = none ∧
    (start.setPc 0xFFF).pc.toNat + 1 > 0xFFF := by decide +kernel
theorem witness_AwaitingKeyCycle :
    (start.setWait (some 0xF)).run = .running ∧ (start.setWait (some 0xF)).wait = some 0xF ∧
    (start.setWait (some 0xF)).observedKey = none ∧
    ((start.setWait (some 0xF)).setObservedKey (some 0xF)).wait = some 0xF ∧
    ((start.setWait (some 0xF)).setObservedKey (some 0xF)).observedKey = some 0xF := by decide +kernel
theorem witness_FinalStatesHaveNoStep :
    (start.setRun (.halted .stackUnderflow)).run = .halted .stackUnderflow ∧
    (start.setRun .terminated).run = .terminated := by decide +kernel

/-- An unsupported word at the last address a fetch can use. -/
def lastUnsupported : State := (start.setPc 0xFFE).withFetchWord 16 0xFFFF

theorem witness_UnsupportedWordRaises :
    lastUnsupported.run = .running ∧ lastUnsupported.wait = none ∧ lastUnsupported.pc.toNat ≤ 0xFFE ∧
    decode (lastUnsupported.readByte lastUnsupported.pc.toNat ++
      lastUnsupported.readByte (lastUnsupported.pc.toNat + 1)) = .unsupported 0xFFFF#16 := by decide +kernel
theorem witness_HaltPolicyHalts :
    start.params.errorPolicy = .halt ∧ (skipPolicy start).params.errorPolicy = .skip := by decide +kernel
theorem witness_SkipPolicySkips :
    (skipPolicy start).params.errorPolicy = .skip ∧ Error.sysNotExecutable 0 ≠ .stackOverflow ∧
    Error.sysNotExecutable 0 ≠ .stackUnderflow := by decide +kernel
theorem witness_ErrorsArePrecise :
    exec .cls start = .next (nextOf (exec .cls start)) ∧
    exec (.sys 0) start = .next (nextOf (exec (.sys 0) start)) := ⟨rfl, rfl⟩
theorem witness_JumpsSetThePc :
    (0xFFF#12).toNat > 0xFFE ∧ (0xF00#12).toNat + ((start.putV 0 0xFF).getV 0).toNat > 0xFFE := by
  decide +kernel
theorem witness_CallPushesItsAddress : (start.setSp 0).sp.toNat < 16 ∧ (start.setSp 15).sp.toNat < 16 := by
  decide +kernel
theorem witness_RetResumesAfterTheCall :
    0 < (start.setSp 1).sp.toNat ∧ (start.setSp 1).sp.toNat ≤ 16 ∧
    0 < (start.setSp 16).sp.toNat ∧ (start.setSp 16).sp.toNat ≤ 16 := by decide +kernel
theorem witness_StackErrorsAreFatal :
    (start.setSp 15).sp.toNat < 16 ∧ (start.setSp 16).sp.toNat = 16 ∧ start.sp.toNat = 0 := by
  decide +kernel
theorem witness_IllegalStackPointerStops : 16 < (start.setSp 17).sp.toNat := by decide +kernel

/-- The state after a call that fills the stack. -/
def called : State := nextOf (exec (.call 0x300) (start.setSp 15))

theorem witness_CallAndReturnMatch :
    (start.setSp 15).sp.toNat < 16 ∧ exec (.call 0x300) (start.setSp 15) = .next called ∧
    (called.putV 3 9).sp = called.sp ∧
    ∀ j : Fin 16, j.val < called.sp.toNat → (called.putV 3 9).stack[j] = called.stack[j] :=
  ⟨by decide, rfl, rfl, fun _ _ => rfl⟩
theorem witness_flag_register_not_destination : (0 : Reg) ≠ vf := by decide
theorem witness_DrawIsAnXorBlit :
    ((start.setI 0xFF1).i.toNat + (0xF#4).toNat - 1 ≤ 0xFFF) ∧ (0#4 = 0) ∧
    SpriteCovers (at_ 0xFFF [0x80] start) 0 0 1 0 0 ∧ ¬ SpriteCovers (at_ 0xFFF [0x80] start) 0 0 1 31 63 := by
  refine ⟨by decide, rfl, ⟨0, 0, by decide, by decide, by decide +kernel, by decide +kernel, by decide +kernel⟩, ?_⟩
  rintro ⟨k, j, hk, _, hr, _, _⟩
  have h0 : (State.getV (at_ 0xFFF [0x80] start) 0).toNat = 0 := by decide +kernel
  have h1 : (1 : Nibble).toNat = 1 := rfl
  have h31 : ((31 : Fin 32) : Nat) = 31 := rfl
  rw [h0, h31] at hr
  omega
theorem witness_DrawIsAnXorBlit_collision :
    ∃ r c, (lit 0 0 (at_ 0xFFF [0x80] start)).display.pixel r c = true ∧
      (nextOf (exec (.drw 0 0 1) (lit 0 0 (at_ 0xFFF [0x80] start)))).display.pixel r c = false :=
  ⟨0, 0, by decide +kernel⟩
theorem witness_DrawIsAnXorBlit_no_collision :
    ¬ ∃ r c, start.display.pixel r c = true ∧ (nextOf (exec (.drw 0 0 0) start)).display.pixel r c = false := by
  rintro ⟨r, c, h, _⟩
  exact absurd h (by simp [start, State.reset, Display.pixel])
theorem witness_DrawPastMemoryRaises :
    (2#4 ≠ 0) ∧ (start.setI 0xFFF).i.toNat + (2#4).toNat - 1 > 0xFFF ∧
    (start.setI 0xFFFF).i.toNat + (2#4).toNat - 1 > 0xFFF := by decide +kernel

/-- The state after a first draw at the end of memory. -/
def drawn : State := nextOf (exec (.drw 0 1 1) (at_ 0xFFF [0x80] start))

theorem witness_DrawTwiceRestores :
    ((at_ 0xFFF [0x80] start).i.toNat + (1#4).toNat - 1 ≤ 0xFFF) ∧
    exec (.drw 0 1 1) (at_ 0xFFF [0x80] start) = .next drawn ∧ drawn.i = (at_ 0xFFF [0x80] start).i ∧
    drawn.mem = (at_ 0xFFF [0x80] start).mem ∧ drawn.getV 0 = (at_ 0xFFF [0x80] start).getV 0 ∧
    drawn.getV 1 = (at_ 0xFFF [0x80] start).getV 1 :=
  ⟨by decide +kernel, rfl, rfl, rfl, by decide +kernel, by decide +kernel⟩
theorem witness_KeySkips :
    ((start.setObservedKey (some 0)).params.skpKeySource = .observedKey ∧
      ∃ k, (start.setObservedKey (some 0)).observedKey = some k ∧ k.toNat = (start.getV 0).toNat) ∧
    ((keyDownSource (setKey 0xF true (start.putV 0 0xF))).params.skpKeySource = .keyDown ∧
      (keyDownSource (setKey 0xF true (start.putV 0 0xF))).keyDown[15] = true) :=
  ⟨⟨rfl, 0, rfl, by decide +kernel⟩, rfl, by decide +kernel⟩
theorem witness_KeyReadCompletesOrWaits :
    (start.setObservedKey (some 0xF)).observedKey = some 0xF ∧ start.observedKey = none := ⟨rfl, rfl⟩
theorem witness_GlyphAddresses :
    ((start.putV 4 15).getV 4).toNat ≤ 15 ∧
    (((start.putV 4 16).getV 4).toNat > 15 ∧ start.params.glyphPolicy = .fault) ∧
    (glyphs .mask start).params.glyphPolicy = .mask ∧
    (glyphs .multiply start).params.glyphPolicy = .multiply := by decide +kernel
theorem witness_BcdStoresDigits :
    (start.setI 0xFFE).i.toNat + 2 > 0xFFF ∧ ¬ (start.setI 0xFFD).i.toNat + 2 > 0xFFF := by decide +kernel
theorem witness_DumpStoresRegisters_and_LoadReadsRegisters :
    (start.setI 0xFF1).i.toNat + (0xF#4).toNat > 0xFFF ∧ ¬ (start.setI 0xFF0).i.toNat + (0xF#4).toNat > 0xFFF ∧
    ¬ (start.setI 0xFFF).i.toNat + (0x0#4).toNat > 0xFFF := by decide +kernel

/-- The state after a dump of every register to the end of memory. -/
def dumped : State := nextOf (exec (.ldMemVx 0xF) (counting.setI 0xFF0))

theorem witness_LoadUndoesDump :
    (counting.setI 0xFF0).i.toNat + (0xF#4).toNat ≤ 0xFFF ∧
    exec (.ldMemVx 0xF) (counting.setI 0xFF0) = .next dumped ∧
    (start.setMem dumped.mem).mem = dumped.mem ∧
    ((start.setMem dumped.mem).setI 0xFF0).i = (counting.setI 0xFF0).i := ⟨by decide, rfl, rfl, rfl⟩
theorem witness_CanonicalMemoriesAgree :
    Memory.wf [(0, 0x12), (0xFFF, 0xAB)] = true ∧
    ∀ a, Memory.read [(0, 0x12), (0xFFF, 0xAB)] a = Memory.read [(0, 0x12), (0xFFF, 0xAB)] a :=
  ⟨by decide +kernel, fun _ => rfl⟩
theorem witness_RomLoads :
    (start.setCycled true).cycled = true ∧ start.cycled = false ∧
    (List.replicate 3585 (0 : Byte)).length > 3584 ∧ ¬ (List.replicate 3584 (0 : Byte)).length > 3584 := by
  rw [List.length_replicate, List.length_replicate]
  exact ⟨rfl, rfl, by decide, by decide⟩
theorem witness_HostTickCountsDown :
    start.params.timerTickInCycle = true ∧ (hostTicks start).params.timerTickInCycle = false ∧
    (hostTicks start).run = .running ∧ (hostTicks (start.setRun .terminated)).run ≠ .running := by
  decide +kernel

/-- A running state that meets the invariant, with an instruction placed. -/
def placed : State := start.withFetchWord 16 0x6A2F

theorem witness_Inv : Inv placed where
  mem := by decide +kernel
  sp := by decide
  entries := by intro j h; simp [placed, start, State.withFetchWord, placeOpcode, State.reset, State.writeBytes,
    State.setMem, State.setWait, State.setRun, resetPc, programStart] at h
  pc := by decide +kernel
  wait := by intro x h; simp [placed, start, State.withFetchWord, placeOpcode, State.reset, State.setWait,
    State.setRun, resetPc, programStart] at h
  halted := by intro e h; simp [placed, start, State.withFetchWord, placeOpcode, State.reset,
    State.setRun, resetPc, programStart] at h
  fresh := by intro _; simp [placed, start, State.withFetchWord, placeOpcode, State.reset, State.setWait,
    State.setRun, resetPc, programStart]
theorem witness_StepKeepsTheInvariant : Inv placed ∧ step placed = .next (nextOf (step placed)) :=
  ⟨witness_Inv, rfl⟩
theorem witness_EveryReachableStateMeetsTheInvariant :
    Reachable (observeKey 3 (State.construct decidedParams .unspecified decidedFontset
      ⟨Vector.replicate 16 0xAA, 0xFFFF, Vector.replicate 16 0xFFFF⟩)) := .observe _ _ (.construct ..)
theorem witness_RunningMachineAlwaysSteps : Inv placed ∧ placed.run = .running :=
  ⟨witness_Inv, by decide +kernel⟩
theorem witness_KeyDownStatesAreNotRead :
    placed.params.skpKeySource = .observedKey ∧ step placed = .next (nextOf (step placed)) := ⟨rfl, rfl⟩
theorem witness_OnlyNamedWriters_display_memory :
    exec .cls (lit 0 0 start) = .next (nextOf (exec .cls (lit 0 0 start))) ∧
    (nextOf (exec .cls (lit 0 0 start))).display ≠ (lit 0 0 start).display ∧
    (nextOf (exec (.ldB 0) (at_ 0xFFD [1] start))).mem ≠ (at_ 0xFFD [1] start).mem :=
  ⟨rfl, by decide +kernel, by decide +kernel⟩
theorem witness_OnlyNamedWriters_registers :
    (nextOf (exec (.ldI 0xFFF) start)).i ≠ start.i ∧ (nextOf (exec (.call 0) start)).stack ≠ start.stack ∧
    (nextOf (exec (.call 0) start)).sp ≠ start.sp ∧ (nextOf (exec (.ldDtVx 0) (counting))).dt ≠ counting.dt ∧
    (nextOf (exec (.ldStVx 0) counting)).st ≠ counting.st ∧
    (nextOf (exec (.ldVxK 0xF) start)).wait ≠ start.wait := by decide +kernel
theorem witness_OnlyNamedWriters_general_registers :
    (0 : Reg) ≠ vf ∧ (nextOf (exec (.ldImm 0 1) start)).getV 0 ≠ start.getV 0 ∧
    (nextOf (exec (.ldVxMem 0xE) start)).getV 0xA ≠ start.getV 0xA ∧
    (nextOf (exec (.jp 0x234) start)).pc ≠ start.pc ∧
    (nextOf (exec (.jp 0x234) start)).pc ≠ start.pc + 2 := by decide +kernel
theorem witness_OnlyNamedWriters_errors_draws :
    (nextOf (exec (.sys 0) start)).run ≠ start.run ∧
    (nextOf (exec (.sys 0) (skipPolicy start))).lastError ≠ (skipPolicy start).lastError ∧
    (nextOf (exec (.rnd 0 0) start)).draws ≠ start.draws := ⟨by decide, by decide, by decide⟩
theorem witness_VfChangesOnlyAsFlagOrDestination :
    exec (.ldImm vf 1) start = .next (nextOf (exec (.ldImm vf 1) start)) ∧
    (nextOf (exec (.ldImm vf 1) start)).getV vf ≠ start.getV vf := ⟨rfl, by decide +kernel⟩

end Sys2Proof.Tests
end

section
/-!
SUPPORT. What executing one instruction does to the state, as one list of effects that covers all 35
instructions (10_state.md rules R20 to R41): the safety statements below are case analyses over it.
-/

namespace Sys2Proof.Machine

/-! ### Classes of instructions -/

/-- The instructions R220 gives an error. -/
def MayRaise (i : Instr) : Prop :=
  i = .ret ∨ ∃ x y n nnn, i = .sys nnn ∨ i = .call nnn ∨ i = .drw x y n ∨ i = .ldF x ∨ i = .ldB x ∨
    i = .ldMemVx x ∨ i = .ldVxMem x

/-- The jumps that push nothing (R125, R126). -/
def Jumps (i : Instr) : Prop := ∃ nnn, i = .jp nnn ∨ i = .jpV0 nnn

/-- The conditional skips (R127 to R130, R182, R183). -/
def Skips (i : Instr) : Prop :=
  ∃ x y kk, i = .seImm x kk ∨ i = .sneImm x kk ∨ i = .seReg x y ∨ i = .sneReg x y ∨ i = .skp x ∨
    i = .sknp x

/-- The instructions whose one effect is to write `V[x]`. -/
def WritesReg (i : Instr) (x : Reg) : Prop :=
  ∃ y kk, i = .ldImm x kk ∨ i = .addImm x kk ∨ i = .ldReg x y ∨ i = .orReg x y ∨ i = .andReg x y ∨
    i = .xorReg x y ∨ i = .ldVxDt x ∨ i = .ldVxK x

/-- The flag instructions with destination `x` (R140). -/
def WritesFlag (i : Instr) (x : Reg) : Prop :=
  ∃ y, i = .addReg x y ∨ i = .sub x y ∨ i = .shr x y ∨ i = .subn x y ∨ i = .shl x y

/-- The instructions whose one effect is to write `I` (R200 to R202). -/
def WritesIndex (i : Instr) : Prop := ∃ x nnn, i = .ldI nnn ∨ i = .addI x ∨ i = .ldF x

/-- What executing `i` in `s` can do: each case names its instructions and the state they leave. -/
inductive Effect (s : State) : Instr → State → Prop
  | error {i : Instr} (e : Error) (hi : MayRaise i) : Effect s i (handleError e s)
  | jump {i : Instr} (w : Word) (hi : Jumps i) (hw : w.toNat ≤ 0x10FE) : Effect s i (s.setPc w)
  | skip {i : Instr} (w : Word) (hi : Skips i) (hw : w = s.pc + 4 ∨ w = s.pc + 2) :
      Effect s i (s.setPc w)
  | call (nnn : Addr) (hsp : s.sp.toNat < 16) :
      Effect s (.call nnn) ((push s.pc s).setPc (zext16 nnn))
  | ret (hpos : 0 < s.sp.toNat) (hsp : s.sp.toNat ≤ 16) :
      Effect s .ret ((pop s).setPc (popped s + 2))
  | register {i : Instr} (x : Reg) (b : Byte) (hi : WritesReg i x) :
      Effect s i ((s.putV x b).setPc (s.pc + 2))
  | flag {i : Instr} (x a b : Reg) (f g : Byte → Byte → Byte) (hi : WritesFlag i x) :
      Effect s i ((flagThenResult x a b f g s).setPc (s.pc + 2))
  | random (x : Reg) (kk b : Byte) :
      Effect s (.rnd x kk) (((s.putV x b).setDraws (s.draws + 1)).setPc (s.pc + 2))
  | clear : Effect s .cls ((s.setDisplay Display.blank).setPc (s.pc + 2))
  | draw (x y : Reg) (n : Nibble) (d : Display) (b : Byte) :
      Effect s (.drw x y n) (((s.setDisplay d).putV vf b).setPc (s.pc + 2))
  | await (x : Reg) : Effect s (.ldVxK x) (s.setWait (some x))
  | delay (x : Reg) : Effect s (.ldDtVx x) ((s.setDt (s.getV x)).setPc (s.pc + 2))
  | sound (x : Reg) : Effect s (.ldStVx x) ((s.setSt (s.getV x)).setPc (s.pc + 2))
  | index {i : Instr} (w : Word) (hi : WritesIndex i) : Effect s i ((s.setI w).setPc (s.pc + 2))
  | digits (x : Reg) (bs : List Byte) :
      Effect s (.ldB x) ((s.writeBytes s.i.toNat bs).setPc (s.pc + 2))
  | dump (x : Reg) (bs : List Byte) :
      Effect s (.ldMemVx x)
        ((advanceIndex (blockCount x) (s.writeBytes s.i.toNat bs)).setPc (s.pc + 2))
  | load (x : Reg) :
      Effect s (.ldVxMem x) ((advanceIndex (blockCount x)
        (s.setV (loadBlock s s.i.toNat (blockCount x) s.v))).setPc (s.pc + 2))

/-! ### Every instruction has one of these effects -/

/-- An instruction's own equation turns the state it names into the state the step answers. -/
theorem Effect.of_exec {i : Instr} {s t u : State} (he : exec i s = .next u)
    (h : exec i s = .next t) (hu : Effect s i u) : Effect s i t := by
  obtain rfl : u = t := by simpa using he.symm.trans h
  exact hu

/-- An address field is a jump target below 0x1000 (R125). -/
theorem zext16_addr_toNat_le (nnn : Addr) : (zext16 nnn).toNat ≤ 0xFFF := by
  have := nnn.isLt
  rw [zext16, BitVec.toNat_setWidth]
  omega

/-- The farthest target of `JP V0` is 0xFFF + 0xFF (R126). -/
theorem jpV0_target_le (nnn : Addr) (b : Byte) : (zext16 nnn + zext16 b).toNat ≤ 0x10FE := by
  have hn := zext16_addr_toNat_le nnn
  have hb : (zext16 b).toNat ≤ 0xFF := by
    have := b.isLt
    rw [zext16, BitVec.toNat_setWidth]
    omega
  rw [BitVec.toNat_add]
  omega

/-- The two places a skip leaves `PC` at (R121). -/
theorem skip_target_cases (taken : Bool) (w : Word) :
    (if taken then w + 4 else w + 2) = w + 4 ∨ (if taken then w + 4 else w + 2) = w + 2 := by
  cases taken
  · exact .inr rfl
  · exact .inl rfl

/-- Whatever the instruction, a next state is reached by one of the effects. -/
theorem effect_of_exec {i : Instr} {s t : State} (h : exec i s = .next t) : Effect s i t := by
  cases i with
  | sys nnn => exact .of_exec (exec_sys ..) h (.error _ (.inr ⟨0, 0, 0, nnn, .inl rfl⟩))
  | cls => exact .of_exec (exec_cls ..) h .clear
  | ret =>
    rcases exec_ret_cases s with ⟨hpos, hsp, he⟩ | ⟨_, he⟩ | ⟨_, he⟩
    · exact .of_exec he h (.ret hpos hsp)
    · exact .of_exec he h (.error _ (.inl rfl))
    · cases he.symm.trans h
  | jp nnn =>
    have := zext16_addr_toNat_le nnn
    exact .of_exec (exec_jp ..) h (.jump _ ⟨nnn, .inl rfl⟩ (by omega))
  | call nnn =>
    rcases exec_call_cases nnn s with ⟨hsp, he⟩ | ⟨_, he⟩ | ⟨_, he⟩
    · exact .of_exec he h (.call nnn hsp)
    · exact .of_exec he h (.error _ (.inr ⟨0, 0, 0, nnn, by simp⟩))
    · cases he.symm.trans h
  | seImm x kk =>
    exact .of_exec (exec_seImm ..) h (.skip _ ⟨x, 0, kk, by simp⟩ (skip_target_cases ..))
  | sneImm x kk =>
    exact .of_exec (exec_sneImm ..) h (.skip _ ⟨x, 0, kk, by simp⟩ (skip_target_cases ..))
  | seReg x y => exact .of_exec (exec_seReg ..) h (.skip _ ⟨x, y, 0, by simp⟩ (skip_target_cases ..))
  | sneReg x y =>
    exact .of_exec (exec_sneReg ..) h (.skip _ ⟨x, y, 0, by simp⟩ (skip_target_cases ..))
  | skp x => exact .of_exec (exec_skp ..) h (.skip _ ⟨x, 0, 0, by simp⟩ (skip_target_cases ..))
  | sknp x => exact .of_exec (exec_sknp ..) h (.skip _ ⟨x, 0, 0, by simp⟩ (skip_target_cases ..))
  | ldImm x kk => exact .of_exec (exec_ldImm ..) h (.register x _ ⟨0, kk, by simp⟩)
  | addImm x kk => exact .of_exec (exec_addImm ..) h (.register x _ ⟨0, kk, by simp⟩)
  | ldReg x y => exact .of_exec (exec_ldReg ..) h (.register x _ ⟨y, 0, by simp⟩)
  | orReg x y => exact .of_exec (exec_orReg ..) h (.register x _ ⟨y, 0, by simp⟩)
  | andReg x y => exact .of_exec (exec_andReg ..) h (.register x _ ⟨y, 0, by simp⟩)
  | xorReg x y => exact .of_exec (exec_xorReg ..) h (.register x _ ⟨y, 0, by simp⟩)
  | addReg x y => exact .of_exec (exec_addReg ..) h (.flag x _ _ _ _ ⟨y, by simp⟩)
  | sub x y => exact .of_exec (exec_sub ..) h (.flag x _ _ _ _ ⟨y, by simp⟩)
  | shr x y => exact .of_exec (exec_shr ..) h (.flag x _ _ _ _ ⟨y, by simp⟩)
  | subn x y => exact .of_exec (exec_subn ..) h (.flag x _ _ _ _ ⟨y, by simp⟩)
  | shl x y => exact .of_exec (exec_shl ..) h (.flag x _ _ _ _ ⟨y, by simp⟩)
  | ldI nnn => exact .of_exec (exec_ldI ..) h (.index _ ⟨0, nnn, by simp⟩)
  | addI x => exact .of_exec (exec_addI ..) h (.index _ ⟨x, 0, by simp⟩)
  | jpV0 nnn => exact .of_exec (exec_jpV0 ..) h (.jump _ ⟨nnn, .inr rfl⟩ (jpV0_target_le ..))
  | rnd x kk => exact .of_exec (exec_rnd ..) h (.random x kk _)
  | drw x y n =>
    rcases exec_drw_cases x y n s with ⟨_, he⟩ | ⟨_, he⟩
    · exact .of_exec he h (.error _ (.inr ⟨x, y, n, 0, by simp⟩))
    · exact .of_exec he h (.draw x y n _ _)
  | ldVxDt x => exact .of_exec (exec_ldVxDt ..) h (.register x _ ⟨0, 0, by simp⟩)
  | ldVxK x =>
    rcases exec_ldVxK_cases x s with ⟨k, _, he⟩ | ⟨_, he⟩
    · exact .of_exec he h (.register x _ ⟨0, 0, by simp⟩)
    · exact .of_exec he h (.await x)
  | ldDtVx x => exact .of_exec (exec_ldDtVx ..) h (.delay x)
  | ldStVx x => exact .of_exec (exec_ldStVx ..) h (.sound x)
  | ldF x =>
    rcases exec_ldF_cases x s with ⟨a, _, he⟩ | ⟨_, he⟩
    · exact .of_exec he h (.index a ⟨x, 0, by simp⟩)
    · exact .of_exec he h (.error _ (.inr ⟨x, 0, 0, 0, by simp⟩))
  | ldB x =>
    rcases exec_ldB_cases x s with ⟨_, he⟩ | ⟨_, he⟩
    · exact .of_exec he h (.error _ (.inr ⟨x, 0, 0, 0, by simp⟩))
    · exact .of_exec he h (.digits x _)
  | ldMemVx x =>
    rcases exec_ldMemVx_cases x s with ⟨_, he⟩ | ⟨_, he⟩
    · exact .of_exec he h (.error _ (.inr ⟨x, 0, 0, 0, by simp⟩))
    · exact .of_exec he h (.dump x _)
  | ldVxMem x =>
    rcases exec_ldVxMem_cases x s with ⟨_, he⟩ | ⟨_, he⟩
    · exact .of_exec he h (.error _ (.inr ⟨x, 0, 0, 0, by simp⟩))
    · exact .of_exec he h (.load x)

end Sys2Proof.Machine
end

section
/-!
SUPPORT. Every step and every port keeps the invariant (10_state.md rule R27, 40_cycle_driver.md rules R103
to R109, 60_exceptions.md rule R224), so every reachable state meets it.
-/

namespace Sys2Proof.Machine

/-! ### States that agree on what the invariant speaks of -/

/-- The invariant speaks of memory, the stack, `SP`, `PC`, `wait`, `run`, `last_error` and the mark of the
first cycle only. -/
theorem Inv.congr {s t : State} (hs : Inv s) (hmem : t.mem = s.mem) (hsp : t.sp = s.sp)
    (hstack : t.stack = s.stack) (hpc : t.pc = s.pc) (hwait : t.wait = s.wait) (hrun : t.run = s.run)
    (herr : t.lastError = s.lastError) (hcycled : t.cycled = false → s.cycled = false) : Inv t where
  mem := hmem ▸ hs.mem
  sp := hsp ▸ hs.sp
  entries := by rw [hsp, hstack]; exact hs.entries
  pc := hpc ▸ hs.pc
  wait := by rw [hwait, fetchWord_congr hmem hpc]; exact hs.wait
  halted := by rw [hrun, herr]; exact hs.halted
  fresh h := hwait.trans (hs.fresh (hcycled h))

/-- With no key awaited, the clauses on `wait` and the first cycle hold of themselves. -/
theorem Inv.of_no_wait {s t : State} (hs : Inv s) (hmem : Memory.wf t.mem = true) (hsp : t.sp = s.sp)
    (hstack : t.stack = s.stack) (hpc : t.pc.toNat ≤ 0x10FE) (hwait : t.wait = none)
    (hhalted : ∀ e, t.run = .halted e → t.lastError = some e) : Inv t where
  mem := hmem
  sp := hsp ▸ hs.sp
  entries := by rw [hsp, hstack]; exact hs.entries
  pc := hpc
  wait x h := by cases hwait.symm.trans h
  halted := hhalted
  fresh _ := hwait

/-! ### Fetch and decode -/

theorem fetchWord_isSome_iff (s : State) : (fetchWord s).isSome ↔ s.pc.toNat ≤ 0xFFE := by
  by_cases h : s.pc.toNat ≤ 0xFFE
  · simp [fetchWord_of_inside h, h]
  · simp [fetchWord_of_outside (s := s) (by omega), h]

/-- A fetch that answers a word read it inside memory (R101). -/
theorem pc_le_of_fetchWord {s : State} {op : Word} (h : fetchWord s = some op) :
    s.pc.toNat ≤ 0xFFE := (fetchWord_isSome_iff s).1 (by simp [h])

/-- Only family F holds `LD Vx, K` (R76 to R82). -/
theorem opFamily_of_decode_ldVxK {op : Word} {x : Reg} (h : decode op = .instr (.ldVxK x)) :
    opFamily op = 0xF#4 := by
  have h0 : decodeFamily0 op ≠ .instr (.ldVxK x) := by unfold decodeFamily0; split_ifs <;> simp
  have h5 : decodeFamily5 op ≠ .instr (.ldVxK x) := by unfold decodeFamily5; split_ifs <;> simp
  have h8 : decodeFamily8 op ≠ .instr (.ldVxK x) := by unfold decodeFamily8; split_ifs <;> simp
  have h9 : decodeFamily9 op ≠ .instr (.ldVxK x) := by unfold decodeFamily9; split_ifs <;> simp
  have hE : decodeFamilyE op ≠ .instr (.ldVxK x) := by unfold decodeFamilyE; split_ifs <;> simp
  rcases nibble_cases (opFamily op) with hf | hf | hf | hf | hf | hf | hf | hf | hf | hf | hf | hf |
    hf | hf | hf | hf
  all_goals simp [decode, hf, h0, h5, h8, h9, hE] at h ⊢

/-- Within family F the low byte of `LD Vx, K` is 0x0A (R82). -/
theorem fields_of_decodeFamilyF_ldVxK {op : Word} {x : Reg}
    (h : decodeFamilyF op = .instr (.ldVxK x)) : opKk op = 0x0A#8 ∧ opX op = x := by
  unfold decodeFamilyF at h
  split_ifs at h <;> simp_all

/-- A word that decodes to `LD Vx, K` is that instruction's own word (R80, R82). -/
theorem eq_encode_of_decode_ldVxK {op : Word} {x : Reg} (h : decode op = .instr (.ldVxK x)) :
    op = encode (.ldVxK x) := by
  have hfam := opFamily_of_decode_ldVxK h
  have hF : decodeFamilyF op = .instr (.ldVxK x) := by simpa [decode, hfam] using h
  obtain ⟨hkk, hx⟩ := fields_of_decodeFamilyF_ldVxK hF
  rw [encode, ← hfam, ← hx, ← hkk, word_eq_xkk]

/-! ### One instruction -/

/-- The state an instruction is executed in: a running machine inside a cycle that awaits no key and whose
fetch decoded to `i`. -/
structure Fetched (i : Instr) (s : State) : Prop where
  inv : Inv s
  running : s.run = .running
  noWait : s.wait = none
  cycled : s.cycled = true
  inside : s.pc.toNat ≤ 0xFFE
  ownWord : ∀ x, i = .ldVxK x → fetchWord s = some (encode (.ldVxK x))

theorem toNat_add_two_le {w : Word} (h : w.toNat ≤ 0xFFE) : (w + 2).toNat ≤ 0x1000 := by
  bv_omega

/-- `PC` after a skip has not wrapped. -/
theorem toNat_skip_le {w w' : Word} (h : w.toNat ≤ 0xFFE) (hw : w' = w + 4 ∨ w' = w + 2) :
    w'.toNat ≤ 0x1002 := by
  rcases hw with rfl | rfl <;> bv_omega

section
variable {i : Instr} {s t : State}

/-- Advancing past the instruction keeps the invariant, when memory stays canonical and what else changed is
no part the invariant speaks of. -/
theorem Fetched.inv_of_next (h : Fetched i s) (hmem : Memory.wf t.mem = true) (hsp : t.sp = s.sp)
    (hstack : t.stack = s.stack) (hpc : t.pc = s.pc + 2) (hwait : t.wait = s.wait)
    (hrun : t.run = s.run) : Inv t := by
  refine h.inv.of_no_wait hmem hsp hstack ?_ (hwait.trans h.noWait) fun e he => ?_
  · have := toNat_add_two_le h.inside
    rw [hpc]
    omega
  · cases (hrun.trans h.running).symm.trans he

/-- Moving `PC` alone keeps the invariant, where the target is in range. -/
theorem Fetched.inv_setPc (h : Fetched i s) {w : Word} (hw : w.toNat ≤ 0x10FE) : Inv (s.setPc w) :=
  h.inv.of_no_wait h.inv.mem rfl rfl hw h.noWait h.inv.halted

/-- Taking an error, the unsupported word included, keeps the invariant under either policy (R224, R225). -/
theorem Inv.handleError (hs : Inv s) (hrun : s.run = .running) (hwait : s.wait = none)
    (hpc : s.pc.toNat ≤ 0xFFE) (e : Error) : Inv (handleError e s) := by
  rcases handleError_cases e s with ⟨_, he⟩ | ⟨_, he⟩ <;> rw [he]
  · exact hs.of_no_wait hs.mem rfl rfl hs.pc hwait fun e' h' => by simpa using h'
  · exact hs.of_no_wait hs.mem rfl rfl ((toNat_add_two_le hpc).trans (by omega)) hwait
      fun e' h' => by cases hrun.symm.trans h'

/-- `CALL` pushes the address it was fetched from (R124). -/
theorem Fetched.inv_call (h : Fetched i s) (hsp : s.sp.toNat < 16) (nnn : Addr) :
    Inv ((push s.pc s).setPc (zext16 nnn)) where
  mem := h.inv.mem
  sp := by
    simp only [push, State.setPc_sp, State.setSp_sp]
    bv_omega
  entries j hj := by
    have hj : j.val < (s.sp + 1).toNat := hj
    simp only [push, State.setPc_stack, State.setSp_stack, State.setStack_stack, Fin.getElem_fin,
      Vector.getElem_setIfInBounds]
    split
    · exact h.inside
    · exact h.inv.entries j (by bv_omega)
  pc := (zext16_addr_toNat_le nnn).trans (by omega)
  wait x hx := by cases h.noWait.symm.trans hx
  halted := h.inv.halted
  fresh _ := h.noWait

/-- `RET` returns past a live entry, which a fetch came from (R123). -/
theorem Fetched.inv_ret (h : Fetched i s) (hpos : 0 < s.sp.toNat) (hsp : s.sp.toNat ≤ 16) :
    Inv ((pop s).setPc (popped s + 2)) := by
  have hdec : (s.sp - 1).toNat = s.sp.toNat - 1 := by bv_omega
  have hlive : (popped s).toNat ≤ 0xFFE := by
    have hlt : s.sp.toNat - 1 < 16 := by omega
    have := h.inv.entries ⟨s.sp.toNat - 1, hlt⟩ (by simp; omega)
    rw [popped, hdec]
    simpa [Vector.getD, hlt] using this
  have hpc := toNat_add_two_le hlive
  exact {
    mem := h.inv.mem
    sp := by simp only [pop, State.setPc_sp, State.setSp_sp, hdec]; omega
    entries := fun j hj => h.inv.entries j (by
      simp only [pop, State.setPc_sp, State.setSp_sp, hdec] at hj; omega)
    pc := by simp only [State.setPc_pc]; omega
    wait := fun x hx => by cases h.noWait.symm.trans hx
    halted := h.inv.halted
    fresh := fun _ => h.noWait }

/-- Awaiting a key leaves `PC` at the `FX0A` that was fetched (R103, R185). -/
theorem Fetched.inv_await {x : Reg} (h : Fetched (.ldVxK x) s) : Inv (s.setWait (some x)) where
  mem := h.inv.mem
  sp := h.inv.sp
  entries := h.inv.entries
  pc := h.inv.pc
  wait y hy := by
    obtain rfl : x = y := by simpa using hy
    exact h.ownWord x rfl
  halted := h.inv.halted
  fresh hc := by cases h.cycled.symm.trans hc

/-- Every effect keeps the invariant. -/
theorem Effect.keeps_inv (he : Effect s i t) (h : Fetched i s) : Inv t := by
  have hmem := h.inv.mem
  cases he with
  | error e => exact h.inv.handleError h.running h.noWait h.inside e
  | jump w _ hw => exact h.inv_setPc hw
  | skip w _ hw => exact h.inv_setPc ((toNat_skip_le h.inside hw).trans (by omega))
  | call nnn hsp => exact h.inv_call hsp nnn
  | ret hpos hsp => exact h.inv_ret hpos hsp
  | await => exact h.inv_await
  | digits x bs => exact h.inv_of_next (State.wf_writeBytes _ bs hmem) rfl rfl rfl rfl rfl
  | dump x bs => exact h.inv_of_next (State.wf_writeBytes _ bs hmem) rfl rfl rfl rfl rfl
  | _ => exact h.inv_of_next hmem rfl rfl rfl rfl rfl

end

/-! ### One cycle -/

/-- The start of a cycle keeps the invariant. -/
theorem Inv.beginCycle {s : State} (hs : Inv s) : Inv (beginCycle s) :=
  hs.congr (by simp) (by simp) (by simp) (by simp) (by simp) (by simp) (by simp) (by simp)

/-- The key wait keeps the invariant: `PC` still stands at the `FX0A` it leaves (R103). -/
theorem Inv.pollKey {s : State} {x : Reg} (hs : Inv s) (hwait : s.wait = some x) : Inv (pollKey x s) := by
  unfold Sys2Proof.Machine.pollKey
  split
  · have := toNat_add_two_le (pc_le_of_fetchWord (hs.wait x hwait))
    exact hs.of_no_wait hs.mem rfl rfl (by simp only [State.setPc_pc]; omega) rfl hs.halted
  · exact hs

/-- The end of a run keeps the invariant (R102). -/
theorem Inv.terminated {s : State} (hs : Inv s) (hwait : s.wait = none) :
    Inv (s.setRun .terminated) :=
  hs.of_no_wait hs.mem rfl rfl hs.pc hwait fun _ h => by simp at h

/-- What a cycle executes is what it fetched. -/
theorem Inv.fetched {s : State} {op : Word} {i : Instr} (hs : Inv s) (hrun : s.run = .running)
    (hwait : s.wait = none) (hop : fetchWord s = some op) (hd : decode op = .instr i) :
    Fetched i (Sys2Proof.Machine.beginCycle s) where
  inv := hs.beginCycle
  running := by simpa using hrun
  noWait := by simpa using hwait
  cycled := by simp
  inside := by simpa using pc_le_of_fetchWord hop
  ownWord x hx := by
    rw [fetchWord_congr (beginCycle_mem s) (beginCycle_pc s), hop]
    exact congrArg some (eq_encode_of_decode_ldVxK (hx ▸ hd))

/-- One step keeps the invariant, whichever of the four events of R100 it is. -/
theorem Inv.step {s t : State} (hs : Inv s) (h : step s = .next t) : Inv t := by
  obtain ⟨hrun, ⟨x, hwait, rfl⟩ | ⟨hwait, _, rfl⟩ | ⟨op, i, hwait, hop, hd, he⟩ |
    ⟨op, w, hwait, hop, _, rfl⟩⟩ := step_next_cases h
  · exact hs.beginCycle.pollKey (by simpa using hwait)
  · exact hs.beginCycle.terminated (by simpa using hwait)
  · exact (effect_of_exec he).keeps_inv (hs.fetched hrun hwait hop hd)
  · exact hs.beginCycle.handleError (by simpa using hrun) (by simpa using hwait)
      (by simpa using pc_le_of_fetchWord hop) _

/-! ### Construction and the ports -/

theorem Inv.construct (p : Params) (policy : ResetRegPolicy) (font : Fontset) (draw : ResetDraws) :
    Inv (State.construct p policy font draw) where
  mem := State.construct_mem_wf p policy font draw
  sp := by simp [State.construct]
  entries j hj := by simp [State.construct] at hj
  pc := by simp [State.construct, resetPc, programStart]
  wait x h := by simp [State.construct] at h
  halted e h := by simp [State.construct] at h
  fresh _ := rfl

theorem Inv.reset : Inv State.reset where
  mem := State.reset_mem_wf
  sp := by decide
  entries j hj := by simp [State.reset] at hj
  pc := by decide
  wait x h := by simp [State.reset] at h
  halted e h := by simp [State.reset] at h
  fresh _ := rfl

/-- A ROM load happens before the first cycle, so no key is awaited at the bytes it changes (R252). -/
theorem Inv.loadRom {s t : State} {rom : List Byte} (hs : Inv s) (h : loadRom rom s = .next t) :
    Inv t := by
  unfold Sys2Proof.Machine.loadRom at h
  split_ifs at h with hc hlen
  obtain rfl : s.writeBytes programStart rom = t := by simpa using h
  exact hs.of_no_wait (State.wf_writeBytes _ rom hs.mem) rfl rfl hs.pc
    (hs.fresh (by simpa using hc)) hs.halted

/-- The host's tick touches the timers and the sound pulse only (R107, R180). -/
theorem Inv.hostTick {s t : State} (hs : Inv s) (h : hostTick s = .next t) : Inv t := by
  unfold Sys2Proof.Machine.hostTick at h
  split at h
  · cases h
  · split at h
    · obtain rfl : tick s = t := by simpa using h
      rw [tick_eq]
      exact hs.congr rfl rfl rfl rfl rfl rfl rfl id
    · cases h
    · cases h

/-- The invariant holds at construction and every action keeps it, so it holds of every reachable state. -/
theorem Inv.of_reachable {s : State} (h : Reachable s) : Inv s := by
  induction h with
  | construct p policy font draw => exact .construct p policy font draw
  | load rom s t _ ht ih => exact ih.loadRom ht
  | key k down s _ ih => exact ih.congr rfl rfl rfl rfl rfl rfl rfl id
  | observe k s _ ih => exact ih.congr rfl rfl rfl rfl rfl rfl rfl id
  | clear s _ ih => exact ih.congr rfl rfl rfl rfl rfl rfl rfl id
  | tick s t _ ht ih => exact ih.hostTick ht
  | step s t _ ht ih => exact ih.step ht

end Sys2Proof.Machine

namespace Sys2Proof.Proofs

open Sys2Proof Sys2Proof.Machine

/-- Settles O55, by the four events of a cycle and the effects of the instructions. -/
theorem stepKeepsTheInvariant : Obligations.StepKeepsTheInvariant :=
  fun _ _ hs h => hs.step h

/-- Settles O56, by induction on how the state was reached. -/
theorem everyReachableStateMeetsTheInvariant : Obligations.EveryReachableStateMeetsTheInvariant :=
  fun _ h => .of_reachable h

/-- Settles O54: nothing is listed, pushed, awaited or halted at construction. -/
theorem resetMeetsTheInvariant : Obligations.ResetMeetsTheInvariant := Inv.reset

end Sys2Proof.Proofs
end

section
/-!
SUPPORT. Which effects write which part of the state: the named writers of 10_state.md rules R21 to R41 and
20_memory.md rule R50.
-/

namespace Sys2Proof.Machine

section
variable {i : Instr} {s t : State}

/-! ### General registers (R21, R22) -/

/-- A register that reads differently after a register write is the one written. -/
theorem eq_of_getV_putV_ne {x r : Reg} {b : Byte} (h : (s.putV x b).getV r ≠ s.getV r) : x = r := by
  by_contra hne
  exact h (State.getV_putV_of_ne s b hne)

/-- A load changes registers up to `V[x]` only (R206). -/
theorem le_of_getV_loadBlock_ne {x r : Reg} {a : Nat}
    (h : (s.setV (loadBlock s a (blockCount x) s.v)).getV r ≠ s.getV r) : r.toNat ≤ x.toNat := by
  by_contra hlt
  refine h ?_
  rw [State.getV, State.setV_v, getElem_loadBlock, if_neg (by rw [blockCount]; omega), State.getV]

/-- Every writer of a general register: its destination, `VF` as a flag, or a block load. -/
theorem Effect.register_writers (he : Effect s i t) {r : Reg} (hne : t.getV r ≠ s.getV r) :
    WritesReg i r ∨ WritesFlag i r ∨ (∃ kk, i = .rnd r kk) ∨
      (∃ x : Reg, r.toNat ≤ x.toNat ∧ i = .ldVxMem x) ∨
      (r = vf ∧ ((∃ x, WritesFlag i x) ∨ ∃ x y n, i = .drw x y n)) := by
  cases he with
  | register x b hi =>
    obtain rfl := eq_of_getV_putV_ne hne
    exact .inl hi
  | flag x a b f g hi =>
    simp only [State.getV_setPc, getV_flagThenResult] at hne
    split_ifs at hne with hx hf
    · exact .inr (.inl (hx ▸ hi))
    · exact .inr (.inr (.inr (.inr ⟨hf.symm, .inl ⟨x, hi⟩⟩)))
    · exact absurd rfl hne
  | random x kk b =>
    obtain rfl := eq_of_getV_putV_ne hne
    exact .inr (.inr (.inl ⟨kk, rfl⟩))
  | load x => exact .inr (.inr (.inr (.inl ⟨x, le_of_getV_loadBlock_ne hne, rfl⟩)))
  | draw x y n d b =>
    have hr : vf = r := eq_of_getV_putV_ne (s := s.setDisplay d) hne
    exact .inr (.inr (.inr (.inr ⟨hr.symm, .inr ⟨x, y, n, rfl⟩⟩)))
  | error e => exact absurd (by simp [State.getV]) hne
  | _ => exact absurd rfl hne

/-! ### Program counter, `run` and `last_error` (R25, R41) -/

theorem Effect.pc_writers (he : Effect s i t) (hne : t.pc ≠ s.pc) :
    t.pc = s.pc + 2 ∨ i = .ret ∨ (∃ nnn, i = .call nnn) ∨ Jumps i ∨ Skips i := by
  cases he with
  | error e => exact .inl ((handleError_pc_cases e s).resolve_left hne)
  | jump w hi => exact .inr (.inr (.inr (.inl hi)))
  | skip w hi => exact .inr (.inr (.inr (.inr hi)))
  | call nnn => exact .inr (.inr (.inl ⟨nnn, rfl⟩))
  | ret => exact .inr (.inl rfl)
  | await => exact absurd rfl hne
  | _ => exact .inl rfl

theorem Effect.error_writers (he : Effect s i t) (hne : t.run ≠ s.run ∨ t.lastError ≠ s.lastError) :
    (∃ e, TakesError e s t) ∧ MayRaise i := by
  cases he with
  | error e hi => exact ⟨⟨e, takesError_handleError e s⟩, hi⟩
  | _ => exact absurd hne (not_or.2 ⟨not_not.2 rfl, not_not.2 rfl⟩)

/-! ### The parts with few writers (R24, R26 to R34, R50) -/

theorem Effect.display_writers (he : Effect s i t) (hne : t.display ≠ s.display) :
    i = .cls ∨ ∃ x y n, i = .drw x y n := by
  cases he with
  | clear => exact .inl rfl
  | draw x y n => exact .inr ⟨x, y, n, rfl⟩
  | error e => exact absurd (handleError_display e s) hne
  | _ => exact absurd rfl hne

theorem Effect.mem_writers (he : Effect s i t) (hne : t.mem ≠ s.mem) :
    ∃ x, i = .ldB x ∨ i = .ldMemVx x := by
  cases he with
  | digits x => exact ⟨x, .inl rfl⟩
  | dump x => exact ⟨x, .inr rfl⟩
  | error e => exact absurd (handleError_mem e s) hne
  | _ => exact absurd rfl hne

theorem Effect.index_writers (he : Effect s i t) (hne : t.i ≠ s.i) :
    WritesIndex i ∨ ∃ x, i = .ldMemVx x ∨ i = .ldVxMem x := by
  cases he with
  | index w hi => exact .inl hi
  | dump x => exact .inr ⟨x, .inl rfl⟩
  | load x => exact .inr ⟨x, .inr rfl⟩
  | error e => exact absurd (handleError_i e s) hne
  | _ => exact absurd rfl hne

theorem Effect.stack_writers (he : Effect s i t) (hne : t.stack ≠ s.stack) :
    ∃ nnn, i = .call nnn := by
  cases he with
  | call nnn => exact ⟨nnn, rfl⟩
  | error e => exact absurd (handleError_stack e s) hne
  | _ => exact absurd rfl hne

theorem Effect.sp_writers (he : Effect s i t) (hne : t.sp ≠ s.sp) :
    i = .ret ∨ ∃ nnn, i = .call nnn := by
  cases he with
  | ret => exact .inl rfl
  | call nnn => exact .inr ⟨nnn, rfl⟩
  | error e => exact absurd (handleError_sp e s) hne
  | _ => exact absurd rfl hne

theorem Effect.dt_writers (he : Effect s i t) (hne : t.dt ≠ s.dt) : ∃ x, i = .ldDtVx x := by
  cases he with
  | delay x => exact ⟨x, rfl⟩
  | error e => exact absurd (handleError_dt e s) hne
  | _ => exact absurd rfl hne

theorem Effect.st_writers (he : Effect s i t) (hne : t.st ≠ s.st) : ∃ x, i = .ldStVx x := by
  cases he with
  | sound x => exact ⟨x, rfl⟩
  | error e => exact absurd (handleError_st e s) hne
  | _ => exact absurd rfl hne

theorem Effect.wait_writers (he : Effect s i t) (hne : t.wait ≠ s.wait) : ∃ x, i = .ldVxK x := by
  cases he with
  | await x => exact ⟨x, rfl⟩
  | error e => exact absurd (handleError_wait e s) hne
  | _ => exact absurd rfl hne

theorem Effect.draws_writers (he : Effect s i t) (hne : t.draws ≠ s.draws) :
    ∃ x kk, i = .rnd x kk := by
  cases he with
  | random x kk => exact ⟨x, kk, rfl⟩
  | error e => exact absurd (handleError_draws e s) hne
  | _ => exact absurd rfl hne

/-- No instruction writes the keypad inputs, the sound pulse, the parameters or the mark of the first
cycle (R32, R33, R36). -/
theorem Effect.untouched (he : Effect s i t) :
    t.keyDown = s.keyDown ∧ t.observedKey = s.observedKey ∧ t.soundExpired = s.soundExpired ∧
      t.params = s.params ∧ t.cycled = s.cycled := by
  cases he with
  | error e => simp
  | _ => exact ⟨rfl, rfl, rfl, rfl, rfl⟩

end

end Sys2Proof.Machine

namespace Sys2Proof.Proofs

open Sys2Proof Sys2Proof.Machine

/-- Settles O59: each clause is the list of the effects that write its part. -/
theorem onlyNamedWriters : Obligations.OnlyNamedWriters := by
  intro i s t h
  have he := effect_of_exec h
  refine ⟨fun r hr hne => ?_, fun hne => ?_, he.error_writers, he.display_writers, he.mem_writers,
    fun hne => ?_, he.stack_writers, he.sp_writers, he.dt_writers, he.st_writers, he.wait_writers,
    he.draws_writers, he.untouched⟩
  · rcases he.register_writers hne with ⟨y, kk, hi⟩ | ⟨y, hi⟩ | ⟨kk, hi⟩ | hload | ⟨hvf, _⟩
    · exact .inl ⟨y, kk, by tauto⟩
    · exact .inl ⟨y, 0, by tauto⟩
    · exact .inl ⟨0, kk, by tauto⟩
    · exact .inr hload
    · exact absurd hvf hr
  · rcases he.pc_writers hne with hnext | hret | ⟨nnn, hi⟩ | ⟨nnn, hi⟩ | ⟨x, y, kk, hi⟩
    · exact .inl hnext
    · exact .inr (.inl hret)
    · exact .inr (.inr ⟨0, 0, 0, nnn, by tauto⟩)
    · exact .inr (.inr ⟨0, 0, 0, nnn, by tauto⟩)
    · exact .inr (.inr ⟨x, y, kk, 0, by tauto⟩)
  · rcases he.index_writers hne with ⟨x, nnn, hi⟩ | ⟨x, hi⟩
    · exact ⟨x, nnn, by tauto⟩
    · exact ⟨x, 0, by tauto⟩

/-- Settles O60: among the register writers, those of `VF`; a block load that reaches register 15 is
`LD VF, [I]`. -/
theorem vfChangesOnlyAsFlagOrDestination : Obligations.VfChangesOnlyAsFlagOrDestination := by
  intro i s t h hne
  rcases (effect_of_exec h).register_writers hne with ⟨y, kk, hi⟩ | ⟨y, hi⟩ | ⟨kk, hi⟩ |
    ⟨x, hx, hi⟩ | ⟨_, ⟨x, y, hi⟩ | hdraw⟩
  · exact .inr (.inr ⟨y, kk, by tauto⟩)
  · exact .inl ⟨vf, y, hi⟩
  · exact .inr (.inr ⟨0, kk, by tauto⟩)
  · obtain rfl : x = vf := BitVec.eq_of_toNat_eq (Nat.le_antisymm (Nat.le_of_lt_succ x.isLt) hx)
    exact .inr (.inr ⟨0, 0, by tauto⟩)
  · exact .inl ⟨x, y, hi⟩
  · exact .inr (.inl hdraw)

end Sys2Proof.Proofs
end

section
/-!
SUPPORT. Under `SKP_KEY_SOURCE = observed_key` the step commutes with replacing the 16 key-down states
(10_state.md rule R32, 44_keypad_timers.md rule R182): operation by operation, then instruction by
instruction, then for the cycle.
-/

namespace Sys2Proof.Machine

/-- The outcome with the key-down states of its next state replaced. -/
def withKeys (keys : Vector Bool 16) : Outcome → Outcome
  | .next t => .next (t.setKeyDown keys)
  | .fault r => .fault r
  | .refused r => .refused r

variable (keys : Vector Bool 16)

/-! ### Operations -/

theorem handleError_setKeyDown (e : Error) (s : State) :
    handleError e (s.setKeyDown keys) = (handleError e s).setKeyDown keys := by
  unfold handleError
  rw [State.setKeyDown_params]
  split <;> rfl

theorem raiseError_setKeyDown (e : Error) (s : State) :
    raiseError e (s.setKeyDown keys) = withKeys keys (raiseError e s) :=
  congrArg Host.Outcome.next (handleError_setKeyDown keys e s)

theorem outSkipIf_setKeyDown (taken : Bool) (s : State) :
    outSkipIf taken (s.setKeyDown keys) = withKeys keys (outSkipIf taken s) := by
  cases taken <;> rfl

theorem withRange_setKeyDown {count : Nat} {s : State} {k : State → Outcome}
    (hk : k (s.setKeyDown keys) = withKeys keys (k s)) :
    withRange count (s.setKeyDown keys) k = withKeys keys (withRange count s k) := by
  unfold withRange
  rw [State.setKeyDown_i]
  split
  · exact raiseError_setKeyDown keys _ s
  · exact hk

theorem withLegalSp_setKeyDown {s : State} {k : State → Outcome}
    (hk : k (s.setKeyDown keys) = withKeys keys (k s)) :
    withLegalSp (s.setKeyDown keys) k = withKeys keys (withLegalSp s k) := by
  unfold withLegalSp
  rw [State.setKeyDown_sp]
  split
  · exact hk
  · rfl

theorem drawRows_setKeyDown (s : State) (cx cy : Byte) (base n : Nat) (acc : Display × Bool) :
    drawRows (s.setKeyDown keys) cx cy base n acc = drawRows s cx cy base n acc := by
  induction n with
  | zero => rfl
  | succ n ih => rw [drawRows, drawRows, ih, State.readByte_setKeyDown]

theorem loadBlock_setKeyDown (s : State) (a n : Nat) (v : Vector Byte 16) :
    loadBlock (s.setKeyDown keys) a n v = loadBlock s a n v := by
  induction n with
  | zero => rfl
  | succ n ih => rw [loadBlock, loadBlock, ih, State.readByte_setKeyDown]

/-- The one reader of the key-down states does not read them under the decided source (R182, D6). -/
theorem keyPressed_setKeyDown {s : State} (hsrc : s.params.skpKeySource = .observedKey) (x : Reg) :
    keyPressed (s.setKeyDown keys) x = keyPressed s x := by
  simp only [keyPressed, State.setKeyDown_params, hsrc]
  rfl

/-! ### Instructions -/

theorem execRet_setKeyDown (s : State) :
    execRet (s.setKeyDown keys) = withKeys keys (execRet s) := by
  refine withLegalSp_setKeyDown keys ?_
  rw [State.setKeyDown_sp]
  split
  · exact raiseError_setKeyDown keys _ s
  · rfl

theorem execCall_setKeyDown (nnn : Addr) (s : State) :
    execCall nnn (s.setKeyDown keys) = withKeys keys (execCall nnn s) := by
  refine withLegalSp_setKeyDown keys ?_
  rw [State.setKeyDown_sp]
  split
  · exact raiseError_setKeyDown keys _ s
  · rfl

theorem execDrw_setKeyDown (x y : Reg) (n : Nibble) (s : State) :
    execDrw x y n (s.setKeyDown keys) = withKeys keys (execDrw x y n s) := by
  refine withRange_setKeyDown keys ?_
  simp only [drawRows_setKeyDown]
  rfl

theorem execLdVxK_setKeyDown (x : Reg) (s : State) :
    execLdVxK x (s.setKeyDown keys) = withKeys keys (execLdVxK x s) := by
  unfold execLdVxK
  rw [State.setKeyDown_observedKey]
  split <;> rfl

theorem execLdF_setKeyDown (x : Reg) (s : State) :
    execLdF x (s.setKeyDown keys) = withKeys keys (execLdF x s) := by
  unfold execLdF
  rw [State.setKeyDown_params, State.getV_setKeyDown]
  split
  · rfl
  · exact raiseError_setKeyDown keys _ s

theorem execLdB_setKeyDown (x : Reg) (s : State) :
    execLdB x (s.setKeyDown keys) = withKeys keys (execLdB x s) := by
  refine withRange_setKeyDown keys ?_
  rfl

theorem execLdMemVx_setKeyDown (x : Reg) (s : State) :
    execLdMemVx x (s.setKeyDown keys) = withKeys keys (execLdMemVx x s) := by
  refine withRange_setKeyDown keys ?_
  rfl

theorem execLdVxMem_setKeyDown (x : Reg) (s : State) :
    execLdVxMem x (s.setKeyDown keys) = withKeys keys (execLdVxMem x s) := by
  refine withRange_setKeyDown keys ?_
  rw [loadBlock_setKeyDown]
  rfl

/-- Every instruction, over all 35. -/
theorem exec_setKeyDown {s : State} (hsrc : s.params.skpKeySource = .observedKey) (i : Instr) :
    exec i (s.setKeyDown keys) = withKeys keys (exec i s) := by
  cases i with
  | sys nnn => exact raiseError_setKeyDown keys _ s
  | ret => exact execRet_setKeyDown keys s
  | call nnn => exact execCall_setKeyDown keys nnn s
  | seImm x kk => exact outSkipIf_setKeyDown keys _ s
  | sneImm x kk => exact outSkipIf_setKeyDown keys _ s
  | seReg x y => exact outSkipIf_setKeyDown keys _ s
  | sneReg x y => exact outSkipIf_setKeyDown keys _ s
  | skp x =>
    rw [exec_skp, exec_skp, keyPressed_setKeyDown keys hsrc]
    rfl
  | sknp x =>
    rw [exec_sknp, exec_sknp, keyPressed_setKeyDown keys hsrc]
    rfl
  | drw x y n => exact execDrw_setKeyDown keys x y n s
  | ldVxK x => exact execLdVxK_setKeyDown keys x s
  | ldF x => exact execLdF_setKeyDown keys x s
  | ldB x => exact execLdB_setKeyDown keys x s
  | ldMemVx x => exact execLdMemVx_setKeyDown keys x s
  | ldVxMem x => exact execLdVxMem_setKeyDown keys x s
  | _ => rfl

/-! ### The cycle -/

theorem beginCycle_setKeyDown (s : State) :
    beginCycle (s.setKeyDown keys) = (beginCycle s).setKeyDown keys := by
  rw [beginCycle_eq, beginCycle_eq, State.setKeyDown_params]
  split <;> rfl

theorem pollKey_setKeyDown (x : Reg) (s : State) :
    pollKey x (s.setKeyDown keys) = (pollKey x s).setKeyDown keys := by
  unfold pollKey
  rw [State.setKeyDown_observedKey]
  split <;> rfl

theorem execDecoded_setKeyDown {s : State} (hsrc : s.params.skpKeySource = .observedKey)
    (d : Decoded) : execDecoded d (s.setKeyDown keys) = withKeys keys (execDecoded d s) := by
  cases d with
  | instr i => exact exec_setKeyDown keys hsrc i
  | unsupported op => exact raiseError_setKeyDown keys _ s

theorem cycleBody_setKeyDown {s : State} (hsrc : s.params.skpKeySource = .observedKey) :
    cycleBody (s.setKeyDown keys) = withKeys keys (cycleBody s) := by
  have hfetch : fetchWord (s.setKeyDown keys) = fetchWord s := fetchWord_congr rfl rfl
  unfold cycleBody
  rw [State.setKeyDown_wait, hfetch]
  split
  · exact congrArg Host.Outcome.next (pollKey_setKeyDown keys _ s)
  · split
    · rfl
    · exact execDecoded_setKeyDown keys hsrc _

theorem step_setKeyDown {s : State} (hsrc : s.params.skpKeySource = .observedKey) :
    step (s.setKeyDown keys) = withKeys keys (step s) := by
  unfold step cycle
  rw [State.setKeyDown_run, beginCycle_setKeyDown]
  split
  · exact cycleBody_setKeyDown keys (by rw [beginCycle_params, hsrc])
  · rfl
  · rfl

end Sys2Proof.Machine

namespace Sys2Proof.Proofs

open Sys2Proof Sys2Proof.Machine

/-- Settles O58: the step commutes with replacing the key-down states. -/
theorem keyDownStatesAreNotRead : Obligations.KeyDownStatesAreNotRead := by
  intro s t keys hsrc h
  have hcomm := step_setKeyDown keys hsrc
  rw [h] at hcomm
  exact hcomm

end Sys2Proof.Proofs
end

section
/-!
SUPPORT. The stop in a state with an illegal stack pointer, and the construction values (10_state.md rules
R27, R37 and R38).
-/

namespace Sys2Proof.Proofs

open Sys2Proof Sys2Proof.Machine

/-- Settles O24, by the stack pointer check of both instructions. -/
theorem illegalStackPointerStops : Obligations.IllegalStackPointerStops := by
  intro nnn s hsp
  have hcall : execCall nnn s = .fault .stackPointerIllegal := withLegalSp_of_illegal _ hsp
  have hret : execRet s = .fault .stackPointerIllegal := withLegalSp_of_illegal _ hsp
  exact ⟨hcall, hret⟩

/-- Settles O48: memory lists nothing, so a byte reads as the fontset or zero. -/
theorem resetValues : Obligations.ResetValues := by
  refine ⟨fun a => rfl, rfl, fun r c => Display.pixel_blank r c, rfl, rfl, fun x => ?_, rfl, rfl,
    fun j => ?_, fun k => ?_, rfl, rfl, rfl, rfl, rfl, rfl⟩
  · simp [State.getV, State.reset, resetV]
  · simp [State.reset, resetStack]
  · simp [State.reset]

end Sys2Proof.Proofs
end

section
/-!
SUPPORT. A canonical memory is determined by what it reads as: the bytes read give the entries named
(20_memory.md rule R50), and the rising order gives their places in the list.
-/

namespace Sys2Proof.Machine

@[simp] theorem Memory.wfFrom_cons {lo a : Nat} {b : Byte} {m : List Host.Cell} :
    Memory.wfFrom lo ((a, b) :: m) = true ↔
      lo ≤ a ∧ a < memorySize ∧ b ≠ Memory.unlisted a ∧ Memory.wfFrom (a + 1) m = true := by
  simp [Memory.wfFrom, and_assoc]

@[simp] theorem Memory.lookup_head (a : Nat) (b : Byte) (m : List Host.Cell) :
    Memory.lookup ((a, b) :: m) a = some b := by
  simp [Memory.lookup]

theorem Memory.lookup_tail {a k : Nat} (b : Byte) (m : List Host.Cell) (h : a ≠ k) :
    Memory.lookup ((a, b) :: m) k = Memory.lookup m k := by
  simp [Memory.lookup, h]

/-- An entry named by a canonical list lies at or above the list's lower bound, and its byte is not what
its address reads as unlisted. -/
theorem Memory.named_of_wfFrom {lo : Nat} {m : List Host.Cell} {k : Nat} {v : Byte}
    (hm : Memory.wfFrom lo m = true) (h : Memory.lookup m k = some v) :
    lo ≤ k ∧ v ≠ Memory.unlisted k := by
  induction m generalizing lo with
  | nil => simp [Memory.lookup] at h
  | cons c m ih =>
    obtain ⟨a, b⟩ := c
    obtain ⟨hlo, -, hb, hm⟩ := Memory.wfFrom_cons.mp hm
    by_cases hk : a = k
    · subst k
      obtain rfl : b = v := by simpa using h
      exact ⟨hlo, hb⟩
    · rw [Memory.lookup_tail b m hk] at h
      obtain ⟨hle, hv⟩ := ih hm h
      exact ⟨by omega, hv⟩

theorem Memory.lookup_eq_none_of_lt {lo : Nat} {m : List Host.Cell} {k : Nat}
    (hm : Memory.wfFrom lo m = true) (hk : k < lo) : Memory.lookup m k = none := by
  rw [Option.eq_none_iff_forall_ne_some]
  intro v h
  have hle := (Memory.named_of_wfFrom hm h).1
  omega

/-- What a canonical list names is what it reads, where that differs from the unlisted byte. -/
theorem Memory.lookup_eq_some_iff_read {lo : Nat} {m : List Host.Cell} {k : Nat} {v : Byte}
    (hm : Memory.wfFrom lo m = true) :
    Memory.lookup m k = some v ↔ Memory.read m k = v ∧ v ≠ Memory.unlisted k := by
  constructor
  · intro h
    exact ⟨by simp [Memory.read, h], (Memory.named_of_wfFrom hm h).2⟩
  · rintro ⟨hread, hv⟩
    cases h : Memory.lookup m k with
    | none => exact absurd hread.symm (by simpa [Memory.read, h] using hv)
    | some w => simpa [Memory.read, h] using hread

/-- No entry that a canonical list names lies below its first. -/
theorem Memory.head_le_of_lookup {lo a k : Nat} {b v : Byte} {m : List Host.Cell}
    (hm : Memory.wfFrom lo ((a, b) :: m) = true) (h : Memory.lookup ((a, b) :: m) k = some v) :
    a ≤ k := by
  obtain ⟨-, hrest⟩ := Memory.wfFrom_cons.mp hm
  exact (Memory.named_of_wfFrom (Memory.wfFrom_cons.mpr ⟨le_refl a, hrest⟩) h).1

/-- Canonical lists that name the same entries are equal: each one's first entry is the least address the
other names, and behind equal first entries the rests name the same. -/
theorem Memory.eq_of_lookup_eq {lo : Nat} {m m' : List Host.Cell} (hm : Memory.wfFrom lo m = true)
    (hm' : Memory.wfFrom lo m' = true) (h : ∀ k, Memory.lookup m k = Memory.lookup m' k) :
    m = m' := by
  induction m generalizing lo m' with
  | nil =>
    cases m' with
    | nil => rfl
    | cons c' m' => simpa [Memory.lookup] using h c'.1
  | cons c m ih =>
    obtain ⟨a, b⟩ := c
    cases m' with
    | nil => simpa [Memory.lookup] using h a
    | cons c' m' =>
      obtain ⟨a', b'⟩ := c'
      have hle : a ≤ a' := Memory.head_le_of_lookup hm ((h a').trans (Memory.lookup_head a' b' m'))
      have hge : a' ≤ a := Memory.head_le_of_lookup hm' ((h a).symm.trans (Memory.lookup_head a b m))
      obtain rfl : a = a' := le_antisymm hle hge
      obtain rfl : b = b' := by simpa using h a
      obtain ⟨-, -, -, hrest⟩ := Memory.wfFrom_cons.mp hm
      obtain ⟨-, -, -, hrest'⟩ := Memory.wfFrom_cons.mp hm'
      have htail : ∀ k, Memory.lookup m k = Memory.lookup m' k := by
        intro k
        by_cases hk : a = k
        · rw [Memory.lookup_eq_none_of_lt hrest (by omega),
            Memory.lookup_eq_none_of_lt hrest' (by omega)]
        · rw [← Memory.lookup_tail b m hk, h k, Memory.lookup_tail b m' hk]
      rw [ih hrest hrest' htail]

end Sys2Proof.Machine

namespace Sys2Proof.Proofs

open Sys2Proof Sys2Proof.Machine

/-- Settles O47: the bytes read give the entries named, and these give the list. -/
theorem canonicalMemoriesAgree : Obligations.CanonicalMemoriesAgree := by
  intro m m' hm hm' hread
  apply Memory.eq_of_lookup_eq hm hm'
  intro k
  ext v
  rw [Memory.lookup_eq_some_iff_read hm, Memory.lookup_eq_some_iff_read hm', hread k]

end Sys2Proof.Proofs
end

section
/-!
SUPPORT. What the decoder answers for a word of each family, and what it can answer at all (30_encoding.md
rules R74 to R86). The statements about the encoding below are read off these.
-/

namespace Sys2Proof

/-! ### One equation per family (R75, R84) -/

section
variable {w : Word}

theorem decode_of_family0 (hf : opFamily w = 0x0#4) : decode w = decodeFamily0 w := by
  simp [decode, hf]
theorem decode_of_family1 (hf : opFamily w = 0x1#4) : decode w = .instr (.jp (opNnn w)) := by
  simp [decode, hf]
theorem decode_of_family2 (hf : opFamily w = 0x2#4) : decode w = .instr (.call (opNnn w)) := by
  simp [decode, hf]
theorem decode_of_family3 (hf : opFamily w = 0x3#4) :
    decode w = .instr (.seImm (opX w) (opKk w)) := by
  simp [decode, hf]
theorem decode_of_family4 (hf : opFamily w = 0x4#4) :
    decode w = .instr (.sneImm (opX w) (opKk w)) := by
  simp [decode, hf]
theorem decode_of_family5 (hf : opFamily w = 0x5#4) : decode w = decodeFamily5 w := by
  simp [decode, hf]
theorem decode_of_family6 (hf : opFamily w = 0x6#4) :
    decode w = .instr (.ldImm (opX w) (opKk w)) := by
  simp [decode, hf]
theorem decode_of_family7 (hf : opFamily w = 0x7#4) :
    decode w = .instr (.addImm (opX w) (opKk w)) := by
  simp [decode, hf]
theorem decode_of_family8 (hf : opFamily w = 0x8#4) : decode w = decodeFamily8 w := by
  simp [decode, hf]
theorem decode_of_family9 (hf : opFamily w = 0x9#4) : decode w = decodeFamily9 w := by
  simp [decode, hf]
theorem decode_of_familyA (hf : opFamily w = 0xA#4) : decode w = .instr (.ldI (opNnn w)) := by
  simp [decode, hf]
theorem decode_of_familyB (hf : opFamily w = 0xB#4) : decode w = .instr (.jpV0 (opNnn w)) := by
  simp [decode, hf]
theorem decode_of_familyC (hf : opFamily w = 0xC#4) :
    decode w = .instr (.rnd (opX w) (opKk w)) := by
  simp [decode, hf]
theorem decode_of_familyD (hf : opFamily w = 0xD#4) :
    decode w = .instr (.drw (opX w) (opY w) (opN w)) := by
  simp [decode, hf]
theorem decode_of_familyE (hf : opFamily w = 0xE#4) : decode w = decodeFamilyE w := by
  simp [decode, hf]
theorem decode_of_familyF (hf : opFamily w = 0xF#4) : decode w = decodeFamilyF w := by
  simp [decode, hf]

/-! ### A word from its known fields -/

theorem word_of_nnn {f : BitVec 4} (hf : opFamily w = f) : f ++ opNnn w = w := by
  subst hf; exact word_eq_nnn w

theorem word_of_xkk {f : BitVec 4} {kk : Byte} (hf : opFamily w = f) (hk : opKk w = kk) :
    f ++ opX w ++ kk = w := by
  subst hf hk; exact word_eq_xkk w

theorem word_of_xyn {f n : BitVec 4} (hf : opFamily w = f) (hn : opN w = n) :
    f ++ opX w ++ opY w ++ n = w := by
  subst hf hn; exact word_eq_xyn w

end

/-! ### What the decoder can answer -/

/-- The two answers a decoder may give for `w`: a well-formed instruction whose word is `w`, or
unsupported with `w` itself (R74, R86). -/
inductive AnswersFor (w : Word) : Decoded → Prop where
  | instr {i : Instr} (hwf : i.wf = true) (hw : encode i = w) : AnswersFor w (.instr i)
  | unsupported : AnswersFor w (.unsupported w)

section
variable {w : Word}

/-- `SYS` is reached only by words other than those of `CLS` and `RET`, so it is well-formed (R76). -/
theorem decodeFamily0_answersFor (hf : opFamily w = 0x0#4) : AnswersFor w (decodeFamily0 w) := by
  have hw : 0x0#4 ++ opNnn w = w := word_of_nnn hf
  unfold decodeFamily0
  split_ifs with hcls hret
  · exact .instr rfl hcls.symm
  · exact .instr rfl hret.symm
  · have hne : opNnn w ≠ 0x0E0#12 := fun h => hcls (by rw [← hw, h]; rfl)
    have hne' : opNnn w ≠ 0x0EE#12 := fun h => hret (by rw [← hw, h]; rfl)
    exact .instr (by simp [Instr.wf, hne, hne']) hw

theorem decodeFamily5_answersFor (hf : opFamily w = 0x5#4) : AnswersFor w (decodeFamily5 w) := by
  unfold decodeFamily5
  split_ifs with hn
  · exact .instr rfl (word_of_xyn hf hn)
  · exact .unsupported

theorem decodeFamily8_answersFor (hf : opFamily w = 0x8#4) : AnswersFor w (decodeFamily8 w) := by
  unfold decodeFamily8
  split_ifs
  case neg => exact .unsupported
  all_goals exact .instr rfl (word_of_xyn hf ‹_›)

theorem decodeFamily9_answersFor (hf : opFamily w = 0x9#4) : AnswersFor w (decodeFamily9 w) := by
  unfold decodeFamily9
  split_ifs with hn
  · exact .instr rfl (word_of_xyn hf hn)
  · exact .unsupported

theorem decodeFamilyE_answersFor (hf : opFamily w = 0xE#4) : AnswersFor w (decodeFamilyE w) := by
  unfold decodeFamilyE
  split_ifs
  case neg => exact .unsupported
  all_goals exact .instr rfl (word_of_xkk hf ‹_›)

theorem decodeFamilyF_answersFor (hf : opFamily w = 0xF#4) : AnswersFor w (decodeFamilyF w) := by
  unfold decodeFamilyF
  split_ifs
  case neg => exact .unsupported
  all_goals exact .instr rfl (word_of_xkk hf ‹_›)

end

theorem decode_answersFor (w : Word) : AnswersFor w (decode w) := by
  obtain hf | hf | hf | hf | hf | hf | hf | hf | hf | hf | hf | hf | hf | hf | hf | hf :=
    nibble_cases (opFamily w)
  · rw [decode_of_family0 hf]; exact decodeFamily0_answersFor hf
  · rw [decode_of_family1 hf]; exact .instr rfl (word_of_nnn hf)
  · rw [decode_of_family2 hf]; exact .instr rfl (word_of_nnn hf)
  · rw [decode_of_family3 hf]; exact .instr rfl (word_of_xkk hf rfl)
  · rw [decode_of_family4 hf]; exact .instr rfl (word_of_xkk hf rfl)
  · rw [decode_of_family5 hf]; exact decodeFamily5_answersFor hf
  · rw [decode_of_family6 hf]; exact .instr rfl (word_of_xkk hf rfl)
  · rw [decode_of_family7 hf]; exact .instr rfl (word_of_xkk hf rfl)
  · rw [decode_of_family8 hf]; exact decodeFamily8_answersFor hf
  · rw [decode_of_family9 hf]; exact decodeFamily9_answersFor hf
  · rw [decode_of_familyA hf]; exact .instr rfl (word_of_nnn hf)
  · rw [decode_of_familyB hf]; exact .instr rfl (word_of_nnn hf)
  · rw [decode_of_familyC hf]; exact .instr rfl (word_of_xkk hf rfl)
  · rw [decode_of_familyD hf]; exact .instr rfl (word_of_xyn hf rfl)
  · rw [decode_of_familyE hf]; exact decodeFamilyE_answersFor hf
  · rw [decode_of_familyF hf]; exact decodeFamilyF_answersFor hf

theorem wf_and_encode_of_decode {w : Word} {i : Instr} (h : decode w = .instr i) :
    i.wf = true ∧ encode i = w := by
  have hans : AnswersFor w (.instr i) := h ▸ decode_answersFor w
  cases hans with
  | instr hwf hw => exact ⟨hwf, hw⟩

/-! ### The words built from their fields -/

/-- Within family 0 the full-word matches are matches of the address field (R76). -/
theorem decode_nnn_family0 (nnn : Addr) :
    decode (0x0#4 ++ nnn) =
      if nnn = 0x0E0#12 then .instr .cls
      else if nnn = 0x0EE#12 then .instr .ret
      else .instr (.sys nnn) := by
  have hcls : (0x0#4 ++ nnn : Word) = 0x00E0#16 ↔ nnn = 0x0E0#12 := family0_eq_iff nnn 0x0E0#12
  have hret : (0x0#4 ++ nnn : Word) = 0x00EE#16 ↔ nnn = 0x0EE#12 := family0_eq_iff nnn 0x0EE#12
  rw [decode_of_family0 (opFamily_nnn _ _), decodeFamily0]
  simp only [hcls, hret, opNnn_nnn]

theorem decode_xyn_family5 (x y : Reg) (n : Nibble) :
    decode (0x5#4 ++ x ++ y ++ n) =
      if n = 0 then .instr (.seReg x y) else .unsupported (0x5#4 ++ x ++ y ++ n) := by
  rw [decode_of_family5 (opFamily_xyn _ _ _ _), decodeFamily5, opN_xyn, opX_xyn, opY_xyn]
  rfl

theorem decode_xyn_family9 (x y : Reg) (n : Nibble) :
    decode (0x9#4 ++ x ++ y ++ n) =
      if n = 0 then .instr (.sneReg x y) else .unsupported (0x9#4 ++ x ++ y ++ n) := by
  rw [decode_of_family9 (opFamily_xyn _ _ _ _), decodeFamily9, opN_xyn, opX_xyn, opY_xyn]
  rfl

theorem decode_xyn_family8 (x y : Reg) (n : Nibble) :
    decode (0x8#4 ++ x ++ y ++ n) =
      if n = 0x0#4 then .instr (.ldReg x y)
      else if n = 0x1#4 then .instr (.orReg x y)
      else if n = 0x2#4 then .instr (.andReg x y)
      else if n = 0x3#4 then .instr (.xorReg x y)
      else if n = 0x4#4 then .instr (.addReg x y)
      else if n = 0x5#4 then .instr (.sub x y)
      else if n = 0x6#4 then .instr (.shr x y)
      else if n = 0x7#4 then .instr (.subn x y)
      else if n = 0xE#4 then .instr (.shl x y)
      else .unsupported (0x8#4 ++ x ++ y ++ n) := by
  rw [decode_of_family8 (opFamily_xyn _ _ _ _), decodeFamily8, opN_xyn, opX_xyn, opY_xyn]

theorem decode_xkk_familyE (x : Reg) (kk : Byte) :
    decode (0xE#4 ++ x ++ kk) =
      if kk = 0x9E then .instr (.skp x)
      else if kk = 0xA1 then .instr (.sknp x)
      else .unsupported (0xE#4 ++ x ++ kk) := by
  rw [decode_of_familyE (opFamily_xkk _ _ _), decodeFamilyE, opKk_xkk, opX_xkk]
  rfl

theorem decode_xkk_familyF (x : Reg) (kk : Byte) :
    decode (0xF#4 ++ x ++ kk) =
      if kk = 0x07 then .instr (.ldVxDt x)
      else if kk = 0x0A then .instr (.ldVxK x)
      else if kk = 0x15 then .instr (.ldDtVx x)
      else if kk = 0x18 then .instr (.ldStVx x)
      else if kk = 0x1E then .instr (.addI x)
      else if kk = 0x29 then .instr (.ldF x)
      else if kk = 0x33 then .instr (.ldB x)
      else if kk = 0x55 then .instr (.ldMemVx x)
      else if kk = 0x65 then .instr (.ldVxMem x)
      else .unsupported (0xF#4 ++ x ++ kk) := by
  rw [decode_of_familyF (opFamily_xkk _ _ _), decodeFamilyF, opKk_xkk, opX_xkk]
  rfl

/-- The decoder undoes the encoder: the selector written by `encode` is the one its family asks for. -/
theorem decode_encode {i : Instr} (hwf : i.wf = true) : decode (encode i) = .instr i := by
  cases i with
  | sys nnn =>
    obtain ⟨hcls, hret⟩ : nnn ≠ 0x0E0#12 ∧ nnn ≠ 0x0EE#12 := by simpa [Instr.wf] using hwf
    rw [encode, decode_nnn_family0, if_neg hcls, if_neg hret]
  | cls | ret => rfl
  | jp nnn | call nnn | ldI nnn | jpV0 nnn =>
    simp [encode, decode_of_family1, decode_of_family2, decode_of_familyA, decode_of_familyB]
  | seImm x kk | sneImm x kk | ldImm x kk | addImm x kk | rnd x kk =>
    simp [encode, decode_of_family3, decode_of_family4, decode_of_family6, decode_of_family7,
      decode_of_familyC]
  | drw x y n => simp [encode, decode_of_familyD]
  | seReg x y => exact decode_xyn_family5 x y 0x0#4
  | sneReg x y => exact decode_xyn_family9 x y 0x0#4
  | ldReg x y => exact decode_xyn_family8 x y 0x0#4
  | orReg x y => exact decode_xyn_family8 x y 0x1#4
  | andReg x y => exact decode_xyn_family8 x y 0x2#4
  | xorReg x y => exact decode_xyn_family8 x y 0x3#4
  | addReg x y => exact decode_xyn_family8 x y 0x4#4
  | sub x y => exact decode_xyn_family8 x y 0x5#4
  | shr x y => exact decode_xyn_family8 x y 0x6#4
  | subn x y => exact decode_xyn_family8 x y 0x7#4
  | shl x y => exact decode_xyn_family8 x y 0xE#4
  | skp x => exact decode_xkk_familyE x 0x9E#8
  | sknp x => exact decode_xkk_familyE x 0xA1#8
  | ldVxDt x => exact decode_xkk_familyF x 0x07#8
  | ldVxK x => exact decode_xkk_familyF x 0x0A#8
  | ldDtVx x => exact decode_xkk_familyF x 0x15#8
  | ldStVx x => exact decode_xkk_familyF x 0x18#8
  | addI x => exact decode_xkk_familyF x 0x1E#8
  | ldF x => exact decode_xkk_familyF x 0x29#8
  | ldB x => exact decode_xkk_familyF x 0x33#8
  | ldMemVx x => exact decode_xkk_familyF x 0x55#8
  | ldVxMem x => exact decode_xkk_familyF x 0x65#8

/-! ### The opcode map (R80) -/

/-- Every instruction selects its own row: the statements made one by one, put together. -/
theorem encodingRow_statement (i : Instr) : Laws.EncodingRow.Statement i := by
  cases i with
  | sys nnn => exact Laws.EncodingRow.sys nnn
  | cls => exact Laws.EncodingRow.cls
  | ret => exact Laws.EncodingRow.ret
  | jp nnn => exact Laws.EncodingRow.jp nnn
  | call nnn => exact Laws.EncodingRow.call nnn
  | seImm x kk => exact Laws.EncodingRow.seImm x kk
  | sneImm x kk => exact Laws.EncodingRow.sneImm x kk
  | seReg x y => exact Laws.EncodingRow.seReg x y
  | ldImm x kk => exact Laws.EncodingRow.ldImm x kk
  | addImm x kk => exact Laws.EncodingRow.addImm x kk
  | ldReg x y => exact Laws.EncodingRow.ldReg x y
  | orReg x y => exact Laws.EncodingRow.orReg x y
  | andReg x y => exact Laws.EncodingRow.andReg x y
  | xorReg x y => exact Laws.EncodingRow.xorReg x y
  | addReg x y => exact Laws.EncodingRow.addReg x y
  | sub x y => exact Laws.EncodingRow.sub x y
  | shr x y => exact Laws.EncodingRow.shr x y
  | subn x y => exact Laws.EncodingRow.subn x y
  | shl x y => exact Laws.EncodingRow.shl x y
  | sneReg x y => exact Laws.EncodingRow.sneReg x y
  | ldI nnn => exact Laws.EncodingRow.ldI nnn
  | jpV0 nnn => exact Laws.EncodingRow.jpV0 nnn
  | rnd x kk => exact Laws.EncodingRow.rnd x kk
  | drw x y n => exact Laws.EncodingRow.drw x y n
  | skp x => exact Laws.EncodingRow.skp x
  | sknp x => exact Laws.EncodingRow.sknp x
  | ldVxDt x => exact Laws.EncodingRow.ldVxDt x
  | ldVxK x => exact Laws.EncodingRow.ldVxK x
  | ldDtVx x => exact Laws.EncodingRow.ldDtVx x
  | ldStVx x => exact Laws.EncodingRow.ldStVx x
  | addI x => exact Laws.EncodingRow.addI x
  | ldF x => exact Laws.EncodingRow.ldF x
  | ldB x => exact Laws.EncodingRow.ldB x
  | ldMemVx x => exact Laws.EncodingRow.ldMemVx x
  | ldVxMem x => exact Laws.EncodingRow.ldVxMem x

theorem encode_and_opcodeMask (i : Instr) : encode i &&& opcodeMask i = opcodeMatch i :=
  (encodingRow_statement i).1

/-! ### The unsupported selectors of each family (R77 to R82, R86) -/

section
variable {w u : Word}

theorem decodeFamily0_ne_unsupported : decodeFamily0 w ≠ .unsupported u := by
  unfold decodeFamily0
  split_ifs <;> simp

theorem decodeFamily5_eq_unsupported_iff :
    decodeFamily5 w = .unsupported u ↔ u = w ∧ (opN w).toNat ≠ 0 := by
  simp only [decodeFamily5, ← BitVec.toNat_inj (x := opN w)]
  split_ifs <;> simp_all [eq_comm]

theorem decodeFamily9_eq_unsupported_iff :
    decodeFamily9 w = .unsupported u ↔ u = w ∧ (opN w).toNat ≠ 0 := by
  simp only [decodeFamily9, ← BitVec.toNat_inj (x := opN w)]
  split_ifs <;> simp_all [eq_comm]

theorem decodeFamily8_eq_unsupported_iff :
    decodeFamily8 w = .unsupported u ↔
      u = w ∧ (opN w).toNat ∈ [8, 9, 0xA, 0xB, 0xC, 0xD, 0xF] := by
  obtain hn | hn | hn | hn | hn | hn | hn | hn | hn | hn | hn | hn | hn | hn | hn | hn :=
    nibble_cases (opN w) <;> simp [decodeFamily8, hn, eq_comm]

theorem decodeFamilyE_eq_unsupported_iff :
    decodeFamilyE w = .unsupported u ↔ u = w ∧ (opKk w).toNat ∉ [0x9E, 0xA1] := by
  simp only [decodeFamilyE, ← BitVec.toNat_inj (x := opKk w)]
  split_ifs <;> simp_all [eq_comm]

theorem decodeFamilyF_eq_unsupported_iff :
    decodeFamilyF w = .unsupported u ↔
      u = w ∧ (opKk w).toNat ∉ [0x07, 0x0A, 0x15, 0x18, 0x1E, 0x29, 0x33, 0x55, 0x65] := by
  simp only [decodeFamilyF, ← BitVec.toNat_inj (x := opKk w)]
  split_ifs <;> simp_all [eq_comm]

end

end Sys2Proof

namespace Sys2Proof.Proofs

open Sys2Proof

/-- Settles O1: only `SYS` needs its well-formedness, to miss the words of `CLS` and `RET`. -/
theorem decodeOfEncodeIsTheInstruction : Obligations.DecodeOfEncodeIsTheInstruction :=
  fun _ hwf => decode_encode hwf

/-- Settles O2: an instruction is one of the two answers the decoder can give. -/
theorem encodeOfDecodedIsTheWord : Obligations.EncodeOfDecodedIsTheWord :=
  fun _ _ h => wf_and_encode_of_decode h

/-- Settles O3: the word is the instruction's own, and that satisfies its row. -/
theorem decodedWordMatchesItsRow : Obligations.DecodedWordMatchesItsRow := by
  intro w i h
  obtain ⟨-, rfl⟩ := wf_and_encode_of_decode h
  exact encode_and_opcodeMask i

/-- Settles O4, family by family: five of the sixteen have selectors without an instruction. -/
theorem unsupportedWordsExactly : Obligations.UnsupportedWordsExactly := by
  intro w u
  rw [← opFamily_toNat, ← opN_toNat, ← opKk_toNat]
  obtain hf | hf | hf | hf | hf | hf | hf | hf | hf | hf | hf | hf | hf | hf | hf | hf :=
    nibble_cases (opFamily w)
  · simp [decode_of_family0 hf, decodeFamily0_ne_unsupported, hf]
  · simp [decode_of_family1 hf, hf]
  · simp [decode_of_family2 hf, hf]
  · simp [decode_of_family3 hf, hf]
  · simp [decode_of_family4 hf, hf]
  · simp [decode_of_family5 hf, decodeFamily5_eq_unsupported_iff, hf]
  · simp [decode_of_family6 hf, hf]
  · simp [decode_of_family7 hf, hf]
  · simp [decode_of_family8 hf, decodeFamily8_eq_unsupported_iff, hf]
  · simp [decode_of_family9 hf, decodeFamily9_eq_unsupported_iff, hf]
  · simp [decode_of_familyA hf, hf]
  · simp [decode_of_familyB hf, hf]
  · simp [decode_of_familyC hf, hf]
  · simp [decode_of_familyD hf, hf]
  · simp [decode_of_familyE hf, decodeFamilyE_eq_unsupported_iff, hf]
  · simp [decode_of_familyF hf, decodeFamilyF_eq_unsupported_iff, hf]

/-- Settles O5: the two full-word matches are read as matches of the address field. -/
theorem familyZeroDecodes : Obligations.FamilyZeroDecodes := decode_nnn_family0

/-- Settles O6, by the equations of the two families on a word built from its nibbles. -/
theorem familiesFiveAndNineDecode : Obligations.FamiliesFiveAndNineDecode :=
  fun x y n => ⟨decode_xyn_family5 x y n, decode_xyn_family9 x y n⟩

/-- Settles O7: the nine selectors are encodings, and each listed nibble misses all nine. -/
theorem familyEightDecodes : Obligations.FamilyEightDecodes := by
  intro x y
  refine ⟨decode_encode (i := .ldReg x y) rfl, decode_encode (i := .orReg x y) rfl,
    decode_encode (i := .andReg x y) rfl, decode_encode (i := .xorReg x y) rfl,
    decode_encode (i := .addReg x y) rfl, decode_encode (i := .sub x y) rfl,
    decode_encode (i := .shr x y) rfl, decode_encode (i := .subn x y) rfl,
    decode_encode (i := .shl x y) rfl, fun n hn => ?_⟩
  have hlist : n.toNat ∈ [8, 9, 0xA, 0xB, 0xC, 0xD, 0xF] :=
    List.mem_map_of_mem (f := BitVec.toNat) hn
  rw [decode_of_family8 (opFamily_xyn _ _ _ _), decodeFamily8_eq_unsupported_iff, opN_xyn]
  exact ⟨rfl, hlist⟩

/-- Settles O8, by the equations of the two families on a word built from its fields. -/
theorem familiesEAndFDecode : Obligations.FamiliesEAndFDecode :=
  fun x kk => ⟨decode_xkk_familyE x kk, decode_xkk_familyF x kk⟩

/-- Settles O9, by running the decoder on each word of the five groups. -/
theorem specWordsDecode : Obligations.SpecWordsDecode := by
  unfold Obligations.SpecWordsDecode
  refine ⟨?_, ?_, ?_, ?_, ?_⟩
  · decide
  · decide
  · decide
  · decide
  · decide

end Sys2Proof.Proofs
end

section
/-!
SUPPORT. The cycle driver (40_cycle_driver.md rules R100 to R108): frame rules for the state operations, what
the timer tick and the start of a cycle leave, one equation per event of a cycle, and that a legal stack
pointer lets every instruction run.
-/

namespace Sys2Proof.Machine

/-! ### Frames of the state operations -/

section
variable {f : Footprint} {s t : State}

/-- Changing nothing meets every footprint. -/
theorem Frame.refl (f : Footprint) (s : State) : Frame f s s := by
  constructor <;> intros <;> rfl

theorem Frame.setPc (h : Frame f s t) (w : Word) : Frame f s (t.setPc w) := { h with }

theorem Frame.setDt (h : Frame f s t) (hf : f.dt) (w : Byte) : Frame f s (t.setDt w) :=
  { h with dt := fun hn => absurd hf hn }

theorem Frame.setSt (h : Frame f s t) (hf : f.st) (w : Byte) : Frame f s (t.setSt w) :=
  { h with st := fun hn => absurd hf hn }

theorem Frame.setWait (h : Frame f s t) (hf : f.wait) (w : Option Reg) : Frame f s (t.setWait w) :=
  { h with wait := fun hn => absurd hf hn }

theorem Frame.setRun (h : Frame f s t) (hf : f.run) (w : Run) : Frame f s (t.setRun w) :=
  { h with run := fun hn => absurd hf hn }

theorem Frame.putV (h : Frame f s t) {x : Reg} (hf : f.regs x) (b : Byte) : Frame f s (t.putV x b) :=
  { h with
    regs := fun r hr => by
      have hne : x ≠ r := fun hxr => hr (hxr ▸ hf)
      rw [State.getV_putV_of_ne t b hne, h.regs r hr] }

end

/-! ### The tick (R180) -/

/-- A timer counts down to zero and no further, which is subtraction of naturals. -/
theorem toNat_countdown (b : Byte) : (if b = 0 then 0 else b - 1).toNat = b.toNat - 1 := by
  split
  · subst b; rfl
  · bv_omega

theorem tick_dt_toNat (s : State) : (tick s).dt.toNat = s.dt.toNat - 1 := by
  rw [tick_eq, ← toNat_countdown]
  rfl

theorem tick_st_toNat (s : State) : (tick s).st.toNat = s.st.toNat - 1 := by
  rw [tick_eq, ← toNat_countdown]
  rfl

/-- The tick raises the sound pulse exactly when `ST` goes from 1 to 0, and never clears it. -/
theorem tick_soundExpired_iff (s : State) :
    (tick s).soundExpired = true ↔ s.soundExpired = true ∨ s.st.toNat = 1 := by
  rw [tick_eq]
  simp [← BitVec.toNat_inj]

theorem tick_pc (s : State) : (tick s).pc = s.pc := by
  rw [tick_eq]
  rfl

/-- Beside the sound pulse the tick writes the two timers only. -/
theorem tick_frame (s : State) :
    Frame { dt := True, st := True } { s with soundExpired := (tick s).soundExpired } (tick s) := by
  rw [tick_eq]
  exact ((Frame.refl _ (s.setSoundExpired _)).setDt trivial _).setSt trivial _

/-! ### The start of a cycle (R100, R107) -/

theorem beginCycle_of_tickInCycle {s : State} (h : s.params.timerTickInCycle = true) :
    beginCycle s = tick ((s.setCycled true).setSoundExpired false) := if_pos h

theorem beginCycle_of_not_tickInCycle {s : State} (h : ¬ s.params.timerTickInCycle = true) :
    beginCycle s = (s.setCycled true).setSoundExpired false := if_neg h

theorem beginCycle_dt_toNat (s : State) : (beginCycle s).dt.toNat =
    if s.params.timerTickInCycle then s.dt.toNat - 1 else s.dt.toNat := by
  split
  case isTrue h => rw [beginCycle_of_tickInCycle h, tick_dt_toNat]; rfl
  case isFalse h => rw [beginCycle_of_not_tickInCycle h]; rfl

theorem beginCycle_st_toNat (s : State) : (beginCycle s).st.toNat =
    if s.params.timerTickInCycle then s.st.toNat - 1 else s.st.toNat := by
  split
  case isTrue h => rw [beginCycle_of_tickInCycle h, tick_st_toNat]; rfl
  case isFalse h => rw [beginCycle_of_not_tickInCycle h]; rfl

/-- The pulse is cleared first, so it is up only if this cycle's own tick raised it. -/
theorem beginCycle_soundExpired_iff (s : State) : (beginCycle s).soundExpired = true ↔
    s.params.timerTickInCycle = true ∧ s.st.toNat = 1 := by
  by_cases h : s.params.timerTickInCycle = true
  · rw [beginCycle_of_tickInCycle h, tick_soundExpired_iff]
    simp [h]
  · rw [beginCycle_of_not_tickInCycle h]
    simp [h]

theorem beginCycle_frame (s : State) :
    Frame { dt := True, st := True }
      { s with soundExpired := (beginCycle s).soundExpired, cycled := true } (beginCycle s) := by
  by_cases h : s.params.timerTickInCycle = true
  · rw [beginCycle_of_tickInCycle h]
    exact tick_frame ((s.setCycled true).setSoundExpired false)
  · rw [beginCycle_of_not_tickInCycle h]
    exact .refl _ _

/-! ### The key wait (R103) -/

theorem zext8_toNat (k : Key) : (zext8 k).toNat = k.toNat := BitVec.toNat_setWidth_of_le (by decide)

theorem pollKey_of_observed {s : State} {k : Key} (x : Reg) (h : s.observedKey = some k) :
    pollKey x s = ((s.putV x (zext8 k)).setWait none).setPc (s.pc + 2) := by
  simp [pollKey, h]

theorem pollKey_of_not_observed {s : State} (x : Reg) (h : s.observedKey = none) :
    pollKey x s = s := by
  simp [pollKey, h]

/-! ### One equation per event of a step (R100, R231) -/

section
variable {s : State}

theorem step_of_running (hrun : s.run = .running) : step s = cycleBody (beginCycle s) := by
  simp [step, cycle, hrun]

theorem step_of_halted {e : Error} (hrun : s.run = .halted e) : step s = .fault (.halted e) := by
  simp [step, cycle, hrun]

theorem step_of_terminated (hrun : s.run = .terminated) : step s = .fault .terminated := by
  simp [step, cycle, hrun]

theorem step_of_wait {x : Reg} (hrun : s.run = .running) (hwait : s.wait = some x) :
    step s = .next (pollKey x (beginCycle s)) := by
  simp [step_of_running hrun, cycleBody, hwait]

theorem fetchWord_beginCycle (s : State) : fetchWord (beginCycle s) = fetchWord s :=
  fetchWord_congr (beginCycle_mem s) (beginCycle_pc s)

theorem step_of_fetch_none (hrun : s.run = .running) (hwait : s.wait = none)
    (hop : fetchWord s = none) : step s = .next ((beginCycle s).setRun .terminated) := by
  simp [step_of_running hrun, cycleBody, hwait, fetchWord_beginCycle, hop]

theorem step_of_fetch {op : Word} (hrun : s.run = .running) (hwait : s.wait = none)
    (hop : fetchWord s = some op) : step s = execDecoded (decode op) (beginCycle s) := by
  simp [step_of_running hrun, cycleBody, hwait, fetchWord_beginCycle, hop]

end

/-! ### The host's tick (R107) -/

theorem hostTick_of_tickInCycle {s : State} (h : s.params.timerTickInCycle = true) :
    hostTick s = .refused .hostTickWithTickInCycle := if_pos h

theorem hostTick_of_running {s : State} (h : ¬ s.params.timerTickInCycle = true)
    (hrun : s.run = .running) : hostTick s = .next (tick s) := by
  simp [hostTick, h, hrun]

/-- In a final state the host's tick stops as the step does (log entry 7). -/
theorem hostTick_of_final {s : State} (h : ¬ s.params.timerTickInCycle = true)
    (hrun : s.run ≠ .running) : hostTick s = step s := by
  cases hr : s.run with
  | running => exact absurd hr hrun
  | halted e => simp [hostTick, h, hr, step_of_halted hr]
  | terminated => simp [hostTick, h, hr, step_of_terminated hr]

/-! ### Progress (R100, R223) -/

/-- With a legal stack pointer every instruction answers a next state: an error is one too (R223), and only
`CALL` and `RET` check for the illegal pointer that could stop them (R27). -/
theorem exists_exec_next_of_legalSp {s : State} (hsp : s.sp.toNat ≤ 16) (i : Instr) :
    ∃ t, exec i s = .next t := by
  cases i with
  | ret =>
    obtain ⟨-, -, he⟩ | ⟨-, he⟩ | ⟨hillegal, -⟩ := exec_ret_cases s
    · exact ⟨_, he⟩
    · exact ⟨_, he⟩
    · omega
  | call nnn =>
    obtain ⟨-, he⟩ | ⟨-, he⟩ | ⟨hillegal, -⟩ := exec_call_cases nnn s
    · exact ⟨_, he⟩
    · exact ⟨_, he⟩
    · omega
  | seImm x kk => exact ⟨_, exec_seImm x kk s⟩
  | sneImm x kk => exact ⟨_, exec_sneImm x kk s⟩
  | seReg x y => exact ⟨_, exec_seReg x y s⟩
  | sneReg x y => exact ⟨_, exec_sneReg x y s⟩
  | skp x => exact ⟨_, exec_skp x s⟩
  | sknp x => exact ⟨_, exec_sknp x s⟩
  | drw x y n => obtain ⟨-, he⟩ | ⟨-, he⟩ := exec_drw_cases x y n s <;> exact ⟨_, he⟩
  | ldVxK x => obtain ⟨k, -, he⟩ | ⟨-, he⟩ := exec_ldVxK_cases x s <;> exact ⟨_, he⟩
  | ldF x => obtain ⟨a, -, he⟩ | ⟨-, he⟩ := exec_ldF_cases x s <;> exact ⟨_, he⟩
  | ldB x => obtain ⟨-, he⟩ | ⟨-, he⟩ := exec_ldB_cases x s <;> exact ⟨_, he⟩
  | ldMemVx x => obtain ⟨-, he⟩ | ⟨-, he⟩ := exec_ldMemVx_cases x s <;> exact ⟨_, he⟩
  | ldVxMem x => obtain ⟨-, he⟩ | ⟨-, he⟩ := exec_ldVxMem_cases x s <;> exact ⟨_, he⟩
  | _ => exact ⟨_, rfl⟩

/-- An unsupported word is an error, which is a next state as well (R226). -/
theorem exists_execDecoded_next_of_legalSp {s : State} (hsp : s.sp.toNat ≤ 16) (d : Decoded) :
    ∃ t, execDecoded d s = .next t := by
  cases d with
  | instr i => exact exists_exec_next_of_legalSp hsp i
  | unsupported op => exact ⟨_, raiseError_eq _ s⟩

theorem exists_step_next_of_legalSp {s : State} (hsp : s.sp.toNat ≤ 16) (hrun : s.run = .running) :
    ∃ t, step s = .next t := by
  cases hwait : s.wait with
  | some x => exact ⟨_, step_of_wait hrun hwait⟩
  | none =>
    cases hop : fetchWord s with
    | none => exact ⟨_, step_of_fetch_none hrun hwait hop⟩
    | some op =>
      rw [step_of_fetch hrun hwait hop]
      exact exists_execDecoded_next_of_legalSp (by simpa using hsp) (decode op)

end Sys2Proof.Machine

namespace Sys2Proof.Proofs

open Sys2Proof Sys2Proof.Machine

/-- Settles O57: of the invariant, the legal stack pointer is what progress needs. -/
theorem runningMachineAlwaysSteps : Obligations.RunningMachineAlwaysSteps :=
  fun _ hs hrun => exists_step_next_of_legalSp hs.sp hrun

/-- Settles O10: inside memory the fetch answers the word of the two bytes at `PC`. -/
theorem stepRunsTheDecodedInstruction : Obligations.StepRunsTheDecodedInstruction := by
  intro s i hrun hwait hpc hd
  rw [step_of_fetch hrun hwait (fetchWord_of_inside hpc), opcodeOfBytes, hd]
  rfl

/-- Settles O11, part by part: the two timers, the sound pulse, and the frame. -/
theorem cycleStartsWithTheTick : Obligations.CycleStartsWithTheTick :=
  fun s => ⟨beginCycle_dt_toNat s, beginCycle_st_toNat s, beginCycle_soundExpired_iff s,
    beginCycle_pc s, beginCycle_cycled s, beginCycle_frame s⟩

/-- Settles O12: from 0xFFF on the fetch answers no word. -/
theorem fetchOffTheEndTerminates : Obligations.FetchOffTheEndTerminates := by
  intro s hrun hwait hpc
  have hop : fetchWord s = none := fetchWord_of_outside (by omega)
  exact ⟨_, step_of_fetch_none hrun hwait hop, rfl, beginCycle_lastError s, beginCycle_pc s,
    (Frame.refl _ _).setRun trivial _⟩

/-- Settles O13, by whether the state after the tick observes a key, which the tick leaves alone. -/
theorem awaitingKeyCycle : Obligations.AwaitingKeyCycle := by
  intro s x hrun hwait
  have hobs := beginCycle_observedKey s
  cases hk : s.observedKey with
  | some k =>
    have hpoll := pollKey_of_observed x (hobs.trans hk)
    refine ⟨_, hpoll ▸ step_of_wait hrun hwait, ?_, rfl, ?_,
      (((Frame.refl _ _).putV rfl _).setWait trivial _).setPc _⟩
    · simp [zext8_toNat]
    · simp
  | none =>
    have hpoll := pollKey_of_not_observed x (hobs.trans hk)
    exact ⟨_, hpoll ▸ step_of_wait hrun hwait, rfl⟩

/-- Settles O14: the cycle is defined only while `run` is Running. -/
theorem finalStatesHaveNoStep : Obligations.FinalStatesHaveNoStep :=
  fun _ => ⟨fun _ hrun => step_of_halted hrun, fun hrun => step_of_terminated hrun⟩

/-- Settles O52: the event exists only with the tick out of the cycle, and is then one tick. -/
theorem hostTickCountsDown : Obligations.HostTickCountsDown := by
  intro s
  split_ifs with htick hrun
  · exact hostTick_of_tickInCycle htick
  · exact ⟨tick s, hostTick_of_running htick hrun, tick_dt_toNat s, tick_st_toNat s,
      tick_soundExpired_iff s, tick_pc s, tick_frame s⟩
  · exact hostTick_of_final htick hrun

end Sys2Proof.Proofs
end

section
/-!
SUPPORT. Control flow (41_control_flow.md rules R120 to R132): what a push and a pop do to the stack, the one
outcome of `CALL` and of `RET` where the stack allows it, and jump and skip targets as numbers.
-/

namespace Sys2Proof.Machine

/-! ### The stack (R26, R27) -/

section
variable {s : State}

theorem push_sp_toNat (w : Word) (h : s.sp.toNat < 16) : (push w s).sp.toNat = s.sp.toNat + 1 := by
  simp only [push, State.setSp_sp]
  bv_omega

theorem pop_sp_toNat (h : 0 < s.sp.toNat) : (pop s).sp.toNat = s.sp.toNat - 1 := by
  simp only [pop, State.setSp_sp]
  bv_omega

theorem push_stack_getElem (w : Word) (s : State) (j : Fin 16) :
    (push w s).stack[j] = if j.val = s.sp.toNat then w else s.stack[j] := by
  simp [push, Vector.getElem_setIfInBounds, eq_comm]

/-- A pop reads the last live entry. -/
theorem popped_eq_getElem {j : Fin 16} (h : j.val + 1 = s.sp.toNat) : popped s = s.stack[j] := by
  have hdec : (s.sp - 1).toNat = j.val := by bv_omega
  rw [popped, hdec]
  simp [Vector.getD]

theorem Frame.setSp {f : Footprint} {t : State} (h : Frame f s t) (hf : f.sp) (w : Byte) :
    Frame f s (t.setSp w) :=
  { h with sp := fun hn => absurd hf hn }

theorem Frame.setStack {f : Footprint} {t : State} (h : Frame f s t) {w : Vector Word 16}
    (hw : ∀ j : Fin 16, ¬ f.entries j → w[j] = s.stack[j]) : Frame f s (t.setStack w) :=
  { h with entries := hw }

/-- A push writes the entry `SP` and `SP`. -/
theorem push_frame (w : Word) (s : State) :
    Frame { entries := fun j => j.val = s.sp.toNat, sp := True } s (push w s) :=
  ((Frame.refl _ s).setStack fun j hj => (push_stack_getElem w s j).trans (if_neg hj)).setSp trivial _

/-- A pop writes `SP` alone: the entry keeps its value. -/
theorem pop_frame (s : State) : Frame { sp := True } s (pop s) := (Frame.refl _ s).setSp trivial _

/-! ### `CALL` with room and `RET` with a live entry (R123, R124) -/

theorem exec_call_of_room (nnn : Addr) (h : s.sp.toNat < 16) :
    exec (.call nnn) s = .next ((push s.pc s).setPc (zext16 nnn)) := by
  rcases exec_call_cases nnn s with ⟨_, he⟩ | ⟨hfull, _⟩ | ⟨hillegal, _⟩
  · exact he
  · omega
  · omega

theorem exec_ret_of_live (hpos : 0 < s.sp.toNat) (hle : s.sp.toNat ≤ 16) :
    exec .ret s = .next ((pop s).setPc (popped s + 2)) := by
  rcases exec_ret_cases s with ⟨_, _, he⟩ | ⟨hempty, _⟩ | ⟨hillegal, _⟩
  · exact he
  · omega
  · omega

end

/-! ### Targets (R121, R125, R126) -/

theorem zext16_toNat {n : Nat} (hn : n ≤ 16) (v : BitVec n) : (zext16 v).toNat = v.toNat :=
  BitVec.toNat_setWidth_of_le hn

/-- The largest target of `JP V0` is 0xFFF + 0xFF, so the sum does not wrap. -/
theorem jpV0_target_toNat (nnn : Addr) (b : Byte) :
    (zext16 nnn + zext16 b).toNat = nnn.toNat + b.toNat := by
  have hnnn := nnn.isLt
  have hb := b.isLt
  rw [BitVec.toNat_add, zext16_toNat (by decide), zext16_toNat (by decide)]
  omega

theorem skipIfEqual_target (pc : Word) (a b : Byte) :
    (if a == b then pc + 4 else pc + 2) = pc + (if a.toNat = b.toNat then 4 else 2) := by
  by_cases h : a = b
  · simp [h]
  · simp [h, BitVec.toNat_inj]

theorem skipIfUnequal_target (pc : Word) (a b : Byte) :
    (if a != b then pc + 4 else pc + 2) = pc + (if a.toNat = b.toNat then 2 else 4) := by
  by_cases h : a = b
  · simp [h]
  · simp [h, BitVec.toNat_inj]

end Sys2Proof.Machine

namespace Sys2Proof.Proofs

open Sys2Proof Sys2Proof.Machine

/-- Settles O19: the driver takes the error `SYS` raises. -/
theorem sysRaises : Obligations.SysRaises :=
  fun nnn s => ⟨_, exec_sys nnn s, takesError_handleError (.sysNotExecutable nnn) s⟩

/-- Settles O20: neither target wraps, and the fetch answers no word from 0xFFF on. -/
theorem jumpsSetThePc : Obligations.JumpsSetThePc := by
  intro nnn s
  have hjp := zext16_toNat (by decide) nnn
  have hjpV0 := jpV0_target_toNat nnn (s.getV 0)
  refine ⟨⟨_, exec_jp nnn s, hjp, fun hout => fetchWord_of_outside ?_, (Frame.refl _ _).setPc _⟩,
    ⟨_, exec_jpV0 nnn s, hjpV0, fun hout => fetchWord_of_outside ?_, (Frame.refl _ _).setPc _⟩⟩
  · rw [State.setPc_pc, hjp]; omega
  · rw [State.setPc_pc, hjpV0]; omega

/-- Settles O21: with room on the stack `CALL` is a push of `PC` and a jump. -/
theorem callPushesItsAddress : Obligations.CallPushesItsAddress := by
  intro nnn s hroom
  exact ⟨_, exec_call_of_room nnn hroom, zext16_toNat (by decide) nnn, push_sp_toNat s.pc hroom,
    fun j hj => (push_stack_getElem s.pc s j).trans (if_pos hj), (push_frame s.pc s).setPc _⟩

/-- Settles O22: with a live entry `RET` is a pop, and the driver's advance by 2. -/
theorem retResumesAfterTheCall : Obligations.RetResumesAfterTheCall := by
  intro s hpos hle
  exact ⟨_, exec_ret_of_live hpos hle, fun j hj => congrArg (· + 2) (popped_eq_getElem hj),
    pop_sp_toNat hpos, (pop_frame s).setPc _⟩

/-- Settles O25, from O21 and O22: the entry the call wrote is live after it, so it is the one the return
reads. -/
theorem callAndReturnMatch : Obligations.CallAndReturnMatch := by
  intro nnn s t u hroom hcall husp hlive
  obtain ⟨t', hcall', -, htsp, hpushed, -⟩ := callPushesItsAddress nnn s hroom
  obtain rfl : t' = t := by simpa using hcall'.symm.trans hcall
  have hsp : u.sp.toNat = s.sp.toNat + 1 := by rw [husp, htsp]
  obtain ⟨w, hret, hpc, hwsp, -⟩ := retResumesAfterTheCall u (by omega) (by omega)
  obtain ⟨top, htop⟩ : ∃ j : Fin 16, j.val = s.sp.toNat := ⟨⟨_, hroom⟩, rfl⟩
  have hentry : u.stack[top] = s.pc := (hlive top (by omega)).trans (hpushed top htop)
  refine ⟨w, hret, ?_, BitVec.eq_of_toNat_eq (by omega)⟩
  rw [hpc top (by omega), hentry]

/-- Settles O26: each skip moves `PC` alone, to the target its condition selects. -/
theorem skipsCompareRegisters : Obligations.SkipsCompareRegisters := by
  intro x y kk s
  exact ⟨⟨_, exec_seImm x kk s, skipIfEqual_target _ _ _, (Frame.refl _ _).setPc _⟩,
    ⟨_, exec_sneImm x kk s, skipIfUnequal_target _ _ _, (Frame.refl _ _).setPc _⟩,
    ⟨_, exec_seReg x y s, skipIfEqual_target _ _ _, (Frame.refl _ _).setPc _⟩,
    ⟨_, exec_sneReg x y s, skipIfUnequal_target _ _ _, (Frame.refl _ _).setPc _⟩⟩

end Sys2Proof.Proofs
end

section
/-!
SUPPORT. Register, arithmetic and logic (42_alu.md rules R140 to R154): the flags and operands of a flag
instruction as numbers, what all five flag instructions leave, and the frame of the draw counter.
-/

namespace Sys2Proof.Machine

/-! ### Flags as numbers (R147 to R151) -/

theorem carryFlag_toNat (a b : Byte) :
    (carryFlag a b).toNat = if a.toNat + b.toNat > 255 then 1 else 0 := by
  simp only [carryFlag, flagByte_toNat, decide_eq_true_eq]

theorem notBorrowFlag_toNat (a b : Byte) :
    (notBorrowFlag a b).toNat = if a.toNat ≥ b.toNat then 1 else 0 := by
  simp only [notBorrowFlag, flagByte_toNat, decide_eq_true_eq]

theorem shiftedOutRight_toNat (a : Byte) : (shiftedOutRight a).toNat = a.toNat % 2 := by
  rw [shiftedOutRight, BitVec.toNat_and]
  exact Nat.and_one_is_mod a.toNat

/-- Bit 7 of a byte is its quotient by 128, which is below 2. -/
theorem shiftedOutLeft_toNat (a : Byte) : (shiftedOutLeft a).toNat = a.toNat / 128 := by
  have ha := a.isLt
  rw [← Nat.mod_eq_of_lt (show a.toNat / 128 < 2 by omega)]
  rw [shiftedOutLeft, BitVec.toNat_and, BitVec.toNat_ushiftRight, Nat.shiftRight_eq_div_pow]
  exact Nat.and_one_is_mod _

/-! ### Operands (R140, R149, R151) -/

/-- The operand the machine reads after the flag write is the one claims speak of. -/
theorem operandAfterFlag_putV_toNat (s : State) (flag : Byte) (r : Reg) :
    (operandAfterFlag s (s.putV vf flag) r).toNat = resultOperand s r flag.toNat := by
  rw [operandAfterFlag_putV, apply_ite BitVec.toNat, resultOperand]
  simp only [eq_comm (a := r)]

theorem shiftSourceReg_eq_ite (s : State) (x y : Reg) :
    shiftSourceReg s x y = if s.params.shiftSource = .vx then x else y := by
  unfold shiftSourceReg
  cases s.params.shiftSource <;> rfl

/-- Subtraction of bytes with the 256 that keeps it among the naturals on the left (R153). -/
theorem byte_sub_toNat (p q : Byte) : (p - q).toNat = (p.toNat + 256 - q.toNat) % 256 := by
  have hq := q.isLt
  rw [BitVec.toNat_sub]
  omega

/-! ### Flag instructions (R23, R140) -/

/-- What every flag instruction leaves: the flag in `VF` unless the result overwrote it there, the result of
the operands as `ALU_READ_MODE` reads them in `V[x]`, and the rest as it was. The flag and the result are
given as numbers `f` and `v`. -/
theorem exists_exec_of_flagThenResult {i : Instr} {x a b : Reg} {flag result : Byte → Byte → Byte}
    {s : State} {f v : Nat}
    (he : exec i s = .next ((flagThenResult x a b flag result s).setPc (s.pc + 2)))
    (hf : (flag (s.getV a) (s.getV b)).toNat = f)
    (hv : ∀ p q : Byte, p.toNat = resultOperand s a f → q.toNat = resultOperand s b f →
      (result p q).toNat = v) :
    ∃ t, exec i s = .next t ∧ ((x ≠ vf → (t.getV vf).toNat = f) ∧ (t.getV x).toNat = v) ∧
      t.pc = s.pc + 2 ∧ Frame { regs := fun r => r = x ∨ r = vf } s t := by
  refine ⟨_, he, ⟨fun hx => ?flag, ?result⟩, rfl,
    (((Frame.refl _ s).putV (Or.inr rfl) _).putV (Or.inl rfl) _).setPc _⟩
  case flag =>
    rw [State.getV_setPc, getV_flagThenResult, if_neg hx, if_pos rfl, hf]
  case result =>
    rw [State.getV_setPc, getV_flagThenResult, if_pos rfl]
    exact hv _ _ (hf ▸ operandAfterFlag_putV_toNat ..) (hf ▸ operandAfterFlag_putV_toNat ..)

/-! ### The draw counter (R152) -/

theorem Frame.setDraws {f : Footprint} {s t : State} (h : Frame f s t) (hf : f.draws) (w : Nat) :
    Frame f s (t.setDraws w) :=
  { h with draws := fun hn => absurd hf hn }

/-! ### Register writes -/

/-- A register write followed by the driver's advance changes that register alone. -/
theorem putV_setPc_frame (s : State) (x : Reg) (b : Byte) (w : Word) :
    Frame { regs := fun r => r = x } s ((s.putV x b).setPc w) :=
  ((Frame.refl _ s).putV rfl b).setPc w

end Sys2Proof.Machine

namespace Sys2Proof.Proofs

open Sys2Proof Sys2Proof.Machine

/-- Settles O30: the sum of bytes is the sum mod 256. -/
theorem addWithCarry : Obligations.AddWithCarry := by
  intro x y s
  refine exists_exec_of_flagThenResult (exec_addReg x y s) (carryFlag_toNat _ _) fun p q hp hq => ?_
  rw [BitVec.toNat_add, hp, hq]

/-- Settles O31: `SUBN` is `SUB` with the roles of the two operands exchanged. -/
theorem subtractWithNotBorrow : Obligations.SubtractWithNotBorrow := by
  intro x y s
  constructor
  · refine exists_exec_of_flagThenResult (exec_sub x y s) (notBorrowFlag_toNat _ _) fun p q hp hq => ?_
    rw [byte_sub_toNat, hp, hq]
  · refine exists_exec_of_flagThenResult (exec_subn x y s) (notBorrowFlag_toNat _ _) fun p q hp hq => ?_
    rw [byte_sub_toNat, hp, hq]

/-- Settles O32: both operands of a shift are the shift source, and shifts by one halve and double. -/
theorem shiftsOfTheSource : Obligations.ShiftsOfTheSource := by
  intro x y s
  rw [← shiftSourceReg_eq_ite]
  constructor
  · refine exists_exec_of_flagThenResult (exec_shr x y s) (shiftedOutRight_toNat _) fun p q hp _ => ?_
    rw [BitVec.toNat_ushiftRight, Nat.shiftRight_one, hp]
  · refine exists_exec_of_flagThenResult (exec_shl x y s) (shiftedOutLeft_toNat _) fun p q hp _ => ?_
    rw [BitVec.toNat_shiftLeft, Nat.shiftLeft_eq, hp]

/-- Settles O27: the written register reads back. -/
theorem loadsIntoRegisters : Obligations.LoadsIntoRegisters := by
  intro x y kk s
  exact ⟨⟨_, exec_ldImm x kk s, State.getV_putV_self s x _, rfl, putV_setPc_frame ..⟩,
    ⟨_, exec_ldReg x y s, State.getV_putV_self s x _, rfl, putV_setPc_frame ..⟩⟩

/-- Settles O28: the written register reads back, and the sum of bytes is the sum mod 256. -/
theorem immediateAddWraps : Obligations.ImmediateAddWraps := by
  intro x kk s
  refine ⟨_, exec_addImm x kk s, ?_, rfl, putV_setPc_frame ..⟩
  rw [State.getV_setPc, State.getV_putV_self, BitVec.toNat_add]

/-- Settles O29: the written register reads back, and each operation acts on every bit. -/
theorem logicInstructions : Obligations.LogicInstructions := by
  intro x y s
  refine ⟨⟨_, exec_orReg x y s, fun b => ?_, rfl, putV_setPc_frame ..⟩,
    ⟨_, exec_andReg x y s, fun b => ?_, rfl, putV_setPc_frame ..⟩,
    ⟨_, exec_xorReg x y s, fun b => ?_, rfl, putV_setPc_frame ..⟩⟩
  · rw [State.getV_setPc, State.getV_putV_self, BitVec.getLsbD_or]
  · rw [State.getV_setPc, State.getV_putV_self, BitVec.getLsbD_and]
  · rw [State.getV_setPc, State.getV_putV_self, BitVec.getLsbD_xor]

/-- Settles O33, for any value the opaque byte may have: only the mask is computed. -/
theorem randomIsMasked : Obligations.RandomIsMasked := by
  intro x kk s
  refine ⟨_, exec_rnd x kk s, fun b => ?_, rfl, rfl,
    (((Frame.refl _ s).putV rfl _).setDraws trivial _).setPc _⟩
  rw [State.getV_setPc, State.getV_setDraws, State.getV_putV_self, BitVec.getLsbD_and]

end Sys2Proof.Proofs
end

section
/-!
SUPPORT. The display instructions (43_display.md rules R170 to R174): what it is to be a blit of a set of
pixels, that the loops of R171 are one as no two sprite bits of a draw reach the same pixel (R172), that the
same blit twice restores the display, and the frame of the display buffer.
-/

namespace Sys2Proof.Machine

/-! ### Blits (R171, R172) -/

/-- `drawn` is a display and collision flag that come of flipping the pixels of `covered` in `before`, each
once; the collision is judged on `before` (R172). -/
structure IsBlit (covered : Fin 32 → Fin 64 → Prop) (before : Display) (drawn : Display × Bool) :
    Prop where
  flipped : ∀ r c, covered r c → drawn.1.pixel r c = !before.pixel r c
  kept : ∀ r c, ¬ covered r c → drawn.1.pixel r c = before.pixel r c
  hit_iff : drawn.2 = true ↔ ∃ r c, covered r c ∧ before.pixel r c = true

namespace IsBlit

variable {covered covered' : Fin 32 → Fin 64 → Prop} {before : Display} {drawn again : Display × Bool}

theorem congr (h : IsBlit covered before drawn) (hiff : ∀ r c, covered' r c ↔ covered r c) :
    IsBlit covered' before drawn where
  flipped r c hc := h.flipped r c ((hiff r c).1 hc)
  kept r c hc := h.kept r c fun hc' => hc ((hiff r c).2 hc')
  hit_iff := by simp only [hiff, h.hit_iff]

theorem nothing (before : Display) : IsBlit (fun _ _ => False) before (before, false) where
  flipped _ _ hc := hc.elim
  kept _ _ _ := rfl
  hit_iff := by simp

/-- The loop tests the pixel just before the toggle, which is testing it before the draw as long as it is
still uncovered (R172). -/
theorem toggle {r : Fin 32} {c : Fin 64} (h : IsBlit covered before drawn) (hfree : ¬ covered r c) :
    IsBlit (fun r' c' => covered r' c' ∨ r' = r ∧ c' = c) before
      (drawn.1.toggle r c, drawn.2 || drawn.1.pixel r c) where
  flipped r' c' hc := by
    rw [Display.pixel_toggle]
    obtain hold | ⟨rfl, rfl⟩ := hc
    · have hne : ¬ (r = r' ∧ c = c') := by rintro ⟨rfl, rfl⟩; exact hfree hold
      rw [if_neg hne, h.flipped r' c' hold]
    · rw [if_pos ⟨rfl, rfl⟩, h.kept r' c' hfree]
  kept r' c' hc := by
    obtain ⟨hold, hne⟩ := not_or.1 hc
    rw [Display.pixel_toggle, if_neg fun he => hne ⟨he.1.symm, he.2.symm⟩, h.kept r' c' hold]
  hit_iff := by
    simp [h.hit_iff, h.kept r c hfree, or_and_right, exists_or, and_assoc]

/-- A collision is a pixel that goes from ON to OFF, as R172 words it. -/
theorem hit_iff_turnsOff (h : IsBlit covered before drawn) : drawn.2 = true ↔
    ∃ r c, before.pixel r c = true ∧ drawn.1.pixel r c = false := by
  rw [h.hit_iff]
  refine exists_congr fun r => exists_congr fun c => ?_
  by_cases hc : covered r c
  · simp [hc, h.flipped r c hc]
  · simp [hc, h.kept r c hc]

theorem restores (h : IsBlit covered before drawn) (h' : IsBlit covered drawn.1 again) :
    again.1 = before := by
  refine Display.ext_pixel fun r c => ?_
  by_cases hc : covered r c
  · rw [h'.flipped r c hc, h.flipped r c hc, Bool.not_not]
  · rw [h'.kept r c hc, h.kept r c hc]

theorem again_hit_iff (h : IsBlit covered before drawn) (h' : IsBlit covered drawn.1 again) :
    again.2 = true ↔ ∃ r c, covered r c ∧ before.pixel r c = false := by
  rw [h'.hit_iff]
  refine exists_congr fun r => exists_congr fun c => and_congr_right fun hc => ?_
  rw [h.flipped r c hc, Bool.not_eq_true']

end IsBlit

/-! ### The loops of R171 -/

/-- No two rows of a sprite reach the same display row (R172). -/
theorem spriteRow_injOn (cy : Byte) {k k' : Nat} (hk : k < 32) (hk' : k' < 32)
    (h : spriteRow cy k = spriteRow cy k') : k = k' := by
  simp only [spriteRow, Fin.ext_iff, Fin.val_ofNat] at h
  omega

/-- No two bits of a sprite row reach the same column (R172). -/
theorem spriteCol_injOn (cx : Byte) {j j' : Nat} (hj : j < 64) (hj' : j' < 64)
    (h : spriteCol cx j = spriteCol cx j') : j = j' := by
  simp only [spriteCol, Fin.ext_iff, Fin.val_ofNat] at h
  omega

/-- Some 1 bit among the first `m` of row `k` of a sprite at `cx`, `cy` lands on row `r`, column `c`. -/
def RowCovers (cx cy row : Byte) (k m : Nat) (r : Fin 32) (c : Fin 64) : Prop :=
  r = spriteRow cy k ∧ ∃ j < m, c = spriteCol cx j ∧ spriteBit row j = true

theorem rowCovers_succ_iff (cx cy row : Byte) (k m : Nat) (r : Fin 32) (c : Fin 64) :
    RowCovers cx cy row k (m + 1) r c ↔
      RowCovers cx cy row k m r c ∨
        r = spriteRow cy k ∧ c = spriteCol cx m ∧ spriteBit row m = true := by
  simp only [RowCovers, Nat.lt_succ_iff_lt_or_eq, or_and_right, exists_or, exists_eq_left, and_or_left]

/-- The pixels the sprite of `DRW` covers are those its rows cover. -/
theorem spriteCovers_iff (s : State) (x y : Reg) (n : Nibble) (r : Fin 32) (c : Fin 64) :
    SpriteCovers s x y n r c ↔
      ∃ k < n.toNat, RowCovers (s.getV x) (s.getV y) (s.readByte (s.i.toNat + k)) k 8 r c := by
  simp only [SpriteCovers, RowCovers, spriteRow, spriteCol, spriteBit, Fin.ext_iff, Fin.val_ofNat]
  constructor
  · rintro ⟨k, j, hk, hj, hr, hc, hbit⟩
    exact ⟨k, hk, hr.symm, j, hj, hc.symm, hbit⟩
  · rintro ⟨k, hk, hr, j, hj, hc, hbit⟩
    exact ⟨k, j, hk, hj, hr.symm, hc.symm, hbit⟩

section
variable {covered : Fin 32 → Fin 64 → Prop} {before : Display} {acc : Display × Bool}
  {cx cy row : Byte} {k : Nat}

theorem drawPixel_isBlit {j : Nat} (h : IsBlit covered before acc)
    (hfree : ¬ covered (spriteRow cy k) (spriteCol cx j)) :
    IsBlit (fun r c => covered r c ∨ r = spriteRow cy k ∧ c = spriteCol cx j ∧ spriteBit row j = true)
      before (drawPixel cx cy row k j acc) := by
  unfold drawPixel
  split_ifs with hbit
  · exact (h.toggle hfree).congr fun r c => by simp [hbit]
  · exact h.congr fun r c => by simp [hbit]

/-- The inner loop, onto a display row the draw has not reached yet. -/
theorem drawCols_isBlit (h : IsBlit covered before acc) (hfree : ∀ c, ¬ covered (spriteRow cy k) c)
    {m : Nat} (hm : m ≤ 8) :
    IsBlit (fun r c => covered r c ∨ RowCovers cx cy row k m r c) before
      (drawCols cx cy row k m acc) := by
  induction m with
  | zero => exact h.congr fun r c => by simp [RowCovers]
  | succ m ih =>
    have hnew : ¬ RowCovers cx cy row k m (spriteRow cy k) (spriteCol cx m) := by
      rintro ⟨-, j, hj, hcol, -⟩
      have := spriteCol_injOn cx (by omega) (by omega) hcol
      omega
    refine (drawPixel_isBlit (ih (by omega)) (not_or.2 ⟨hfree _, hnew⟩)).congr fun r c => ?_
    rw [rowCovers_succ_iff, or_assoc]

end

/-- The outer loop, over no more rows than the display has. -/
theorem drawRows_isBlit (s : State) (cx cy : Byte) (base : Nat) (d : Display)
    {n : Nat} (hn : n ≤ 32) :
    IsBlit (fun r c => ∃ k < n, RowCovers cx cy (s.readByte (base + k)) k 8 r c) d
      (drawRows s cx cy base n (d, false)) := by
  induction n with
  | zero => exact (IsBlit.nothing d).congr fun r c => by simp
  | succ n ih =>
    have hfree : ∀ c, ¬ ∃ k < n, RowCovers cx cy (s.readByte (base + k)) k 8 (spriteRow cy n) c := by
      rintro c ⟨k, hk, hrow, -⟩
      have := spriteRow_injOn cy (by omega) (by omega) hrow
      omega
    refine (drawCols_isBlit (ih (by omega)) hfree (Nat.le_refl 8)).congr fun r c => ?_
    simp only [Nat.lt_succ_iff_lt_or_eq, or_and_right, exists_or, exists_eq_left]

/-- What `DRW` computes is the blit of the pixels its sprite covers. -/
theorem drawnSprite_isBlit (s : State) (x y : Reg) (n : Nibble) :
    IsBlit (SpriteCovers s x y n) s.display (drawnSprite s x y n) :=
  (drawRows_isBlit s _ _ _ _ (by have := n.isLt; omega)).congr (spriteCovers_iff s x y n)

/-- The covered pixels depend on `I`, memory and the two position registers alone. -/
theorem spriteCovers_congr {s s' : State} {x y : Reg} (hi : s'.i = s.i) (hmem : s'.mem = s.mem)
    (hx : s'.getV x = s.getV x) (hy : s'.getV y = s.getV y) (n : Nibble) :
    SpriteCovers s' x y n = SpriteCovers s x y n := by
  unfold SpriteCovers State.readByte
  rw [hi, hmem, hx, hy]

/-! ### `DRW` inside and past memory (R171) -/

theorem exec_drw_of_inside {x y : Reg} {n : Nibble} {s : State}
    (h : n = 0 ∨ s.i.toNat + n.toNat - 1 ≤ 0xFFF) :
    exec (.drw x y n) s = .next (((s.setDisplay (drawnSprite s x y n).1).putV vf
      (flagByte (drawnSprite s x y n).2)).setPc (s.pc + 2)) := by
  rcases exec_drw_cases x y n s with ⟨⟨hpos, hout⟩, _⟩ | ⟨_, he⟩
  · rcases h with rfl | hin
    · exact absurd hpos (by decide)
    · omega
  · exact he

theorem exec_drw_of_outside {x y : Reg} {n : Nibble} {s : State} (hn : n ≠ 0)
    (h : s.i.toNat + n.toNat - 1 > 0xFFF) :
    exec (.drw x y n) s = .next (handleError (.memOutOfBounds s.i n.toNat) s) := by
  have hpos : n.toNat ≠ 0 := fun h0 => hn (BitVec.eq_of_toNat_eq h0)
  rcases exec_drw_cases x y n s with ⟨_, he⟩ | ⟨hin, _⟩
  · exact he
  · omega

theorem Frame.setDisplay {f : Footprint} {s t : State} (h : Frame f s t) (hf : ∀ r c, f.pixels r c)
    (w : Display) : Frame f s (t.setDisplay w) :=
  { h with pixels := fun r c hn => absurd (hf r c) hn }

theorem flagByte_eq_zero_iff (b : Bool) : flagByte b = 0 ↔ b = false := by cases b <;> decide

end Sys2Proof.Machine

namespace Sys2Proof.Proofs

open Sys2Proof Sys2Proof.Machine

/-- Settles O35: the loops of R171 are a blit, whose collisions are the pixels that turn OFF. -/
theorem drawIsAnXorBlit : Obligations.DrawIsAnXorBlit := by
  intro x y n s hin
  have hblit := drawnSprite_isBlit s x y n
  refine ⟨_, exec_drw_of_inside hin, hblit.flipped, hblit.kept, fun hoff => ?_, fun hoff => ?_, rfl,
    (((Frame.refl _ s).setDisplay (fun _ _ => trivial) _).putV rfl _).setPc _⟩
  · rw [State.getV_setPc, State.getV_putV_self, flagByte_eq_one_iff]
    exact hblit.hit_iff_turnsOff.2 hoff
  · rw [State.getV_setPc, State.getV_putV_self, flagByte_eq_zero_iff, ← Bool.not_eq_true]
    exact fun hhit => hoff (hblit.hit_iff_turnsOff.1 hhit)

/-- Settles O37: the second draw is the blit of the same pixels, on the display the first one left. -/
theorem drawTwiceRestores : Obligations.DrawTwiceRestores := by
  intro x y n s t s' hin hexec hdisplay hi hmem hx hy
  have hfirst := drawnSprite_isBlit s x y n
  obtain rfl := Host.Outcome.next.inj ((exec_drw_of_inside hin).symm.trans hexec)
  have hsecond : IsBlit (SpriteCovers s x y n) (drawnSprite s x y n).1 (drawnSprite s' x y n) := by
    have h := drawnSprite_isBlit s' x y n
    rwa [spriteCovers_congr hi hmem hx hy, hdisplay] at h
  refine ⟨_, exec_drw_of_inside (hi ▸ hin), hfirst.restores hsecond, ?_⟩
  rw [State.getV_setPc, State.getV_putV_self, flagByte_eq_one_iff]
  exact hfirst.again_hit_iff hsecond

/-- Settles O34: `CLS` puts the blank display, and writes nothing else. -/
theorem clearTurnsEveryPixelOff : Obligations.ClearTurnsEveryPixelOff :=
  fun s => ⟨_, exec_cls s, Display.pixel_blank, rfl,
    ((Frame.refl _ s).setDisplay (fun _ _ => trivial) _).setPc _⟩

/-- Settles O36: past memory the range check raises before the sprite is drawn. -/
theorem drawPastMemoryRaises : Obligations.DrawPastMemoryRaises :=
  fun _ _ n s hn hout => ⟨_, exec_drw_of_outside hn hout,
    takesError_handleError (.memOutOfBounds s.i n.toNat) s⟩

end Sys2Proof.Proofs
end

section
/-!
SUPPORT. The keypad and timer instructions (44_keypad_timers.md rules R182 to R188): when a key counts as
pressed, under each key source.
-/

namespace Sys2Proof.Machine

/-! ### The pressed key (R182, R188) -/

/-- A key index has no value above 15, so no such byte equals one (R188). -/
theorem observedKeyIs_iff (s : State) (b : Byte) :
    observedKeyIs s b = true ↔ ∃ k, s.observedKey = some k ∧ k.toNat = b.toNat := by
  unfold observedKeyIs
  cases s.observedKey with
  | none => simp
  | some k =>
    rw [beq_iff_eq, ← BitVec.toNat_inj, zext8_toNat]
    simp

theorem keyIsDown_iff (s : State) (b : Byte) :
    keyIsDown s b = true ↔ ∃ h : b.toNat < 16, s.keyDown[b.toNat] = true := by
  unfold keyIsDown
  by_cases h : b.toNat < 16
  · simp [h]
  · simp [h]

theorem keyPressed_iff (s : State) (x : Reg) :
    keyPressed s x = true ↔
      (s.params.skpKeySource = .observedKey ∧
        ∃ k, s.observedKey = some k ∧ k.toNat = (s.getV x).toNat) ∨
      (s.params.skpKeySource = .keyDown ∧
        ∃ h : (s.getV x).toNat < 16, s.keyDown[(s.getV x).toNat] = true) := by
  rw [← observedKeyIs_iff, ← keyIsDown_iff]
  unfold keyPressed
  cases s.params.skpKeySource with
  | observedKey => simp
  | keyDown => simp

/-! ### `LD Vx, K` with and without an observed key (R185) -/

theorem exec_ldVxK_of_observed {s : State} {k : Key} (x : Reg) (h : s.observedKey = some k) :
    exec (.ldVxK x) s = .next ((s.putV x (zext8 k)).setPc (s.pc + 2)) := by
  rcases exec_ldVxK_cases x s with ⟨k', hk', he⟩ | ⟨hnone, _⟩
  · obtain rfl := Option.some.inj (h.symm.trans hk')
    exact he
  · exact absurd (h.symm.trans hnone) (Option.some_ne_none k)

theorem exec_ldVxK_of_not_observed {s : State} (x : Reg) (h : s.observedKey = none) :
    exec (.ldVxK x) s = .next (s.setWait (some x)) := by
  rcases exec_ldVxK_cases x s with ⟨k, hk, _⟩ | ⟨_, he⟩
  · exact absurd (hk.symm.trans h) (Option.some_ne_none k)
  · exact he

end Sys2Proof.Machine

namespace Sys2Proof.Proofs

open Sys2Proof Sys2Proof.Machine

/-- Settles O38: both skips test one condition, which is that the key is pressed. -/
theorem keySkips : Obligations.KeySkips := by
  intro x s pressed
  have hpressed : keyPressed s x = true ↔ pressed := keyPressed_iff s x
  refine ⟨⟨_, exec_skp x s, fun h => ?_, fun h => ?_, (Frame.refl _ s).setPc _⟩,
    ⟨_, exec_sknp x s, fun h => ?_, fun h => ?_, (Frame.refl _ s).setPc _⟩⟩
  all_goals
    rw [← hpressed] at h
    simp [h]

/-- Settles O39, by whether a key is observed; its index read as a byte is the same number. -/
theorem keyReadCompletesOrWaits : Obligations.KeyReadCompletesOrWaits := by
  intro x s
  refine ⟨fun k hk => ⟨_, exec_ldVxK_of_observed x hk, ?_, rfl, putV_setPc_frame ..⟩,
    fun hnone => ⟨_, exec_ldVxK_of_not_observed x hnone, rfl, rfl,
      (Frame.refl _ s).setWait trivial _⟩⟩
  rw [State.getV_setPc, State.getV_putV_self, zext8_toNat]

/-- Settles O40: each move writes its destination with the source's value, and the driver advances. -/
theorem timerMoves : Obligations.TimerMoves := by
  intro x s
  exact ⟨⟨_, exec_ldVxDt x s, State.getV_putV_self s x _, rfl, putV_setPc_frame ..⟩,
    ⟨_, exec_ldDtVx x s, rfl, rfl, ((Frame.refl _ s).setDt trivial _).setPc _⟩,
    ⟨_, exec_ldStVx x s, rfl, rfl, ((Frame.refl _ s).setSt trivial _).setPc _⟩⟩

end Sys2Proof.Proofs
end

section
/-!
SUPPORT. The index register and memory instructions (45_index_memory.md rules R200 to R207): decimal digits and
glyph addresses as numbers, reads after a block store and a block load, and the frames of these operations.
-/

namespace Sys2Proof.Machine

/-! ### Operands as numbers (R202, R204) -/

theorem bcdDigits_map_toNat (b : Byte) :
    (bcdDigits b).map BitVec.toNat = [b.toNat / 100, b.toNat / 10 % 10, b.toNat % 10] := by
  have hb := b.isLt
  simp only [bcdDigits, List.map_cons, List.map_nil, BitVec.toNat_ofNat, List.cons.injEq, and_true]
  omega

/-- The largest glyph address is 5 * 255, so the product does not wrap. -/
theorem glyphBase_toNat (d : Byte) : (glyphBase d).toNat = 5 * d.toNat := by
  have hd := d.isLt
  rw [glyphBase, BitVec.toNat_ofNat]
  omega

theorem glyphAddress_eq_none_iff (p : GlyphPolicy) (d : Byte) :
    glyphAddress p d = none ↔ d.toNat > 15 ∧ p = .fault := by
  unfold glyphAddress
  split_ifs with hd
  · simp only [false_iff]
    omega
  · cases p with
    | fault => simpa using hd
    | mask => simp
    | multiply => simp

theorem glyphAddress_toNat {p : GlyphPolicy} {d : Byte} {a : Word} (h : glyphAddress p d = some a) :
    a.toNat = if d.toNat > 15 ∧ p = .mask then 5 * (d.toNat % 16) else 5 * d.toNat := by
  have hmask : (d &&& 0x0F).toNat = d.toNat % 16 := by
    rw [BitVec.toNat_and]
    exact Nat.and_two_pow_sub_one_eq_mod d.toNat 4
  unfold glyphAddress at h
  split_ifs at h with hd
  · obtain rfl := Option.some.inj h
    rw [if_neg (by omega), glyphBase_toNat]
  · cases p with
    | fault => contradiction
    | mask =>
      obtain rfl := Option.some.inj h
      rw [if_pos ⟨by omega, rfl⟩, glyphBase_toNat, hmask]
    | multiply =>
      obtain rfl := Option.some.inj h
      rw [if_neg (by simp), glyphBase_toNat]

section
variable {f : Footprint} {s t : State}

/-! ### Block stores and loads (R51, R204 to R206) -/

/-- A block stored inside memory reads back byte by byte. -/
theorem State.readByte_writeBytes_add {a j : Nat} {bs : List Byte} (h : a + bs.length ≤ 4096)
    (hj : j < bs.length) : (s.writeBytes a bs).readByte (a + j) = bs.getD j 0 := by
  rw [State.readByte, State.writeBytes, State.setMem_mem, Memory.read_store bs s.mem a _ h,
    if_pos (by omega), Nat.add_sub_cancel_left]

/-- `getElem_loadBlock`, read through `V[r]`. -/
theorem State.getV_setV_loadBlock (s : State) (a n : Nat) (r : Reg) :
    (s.setV (loadBlock s a n s.v)).getV r =
      if r.toNat < n then s.readByte (a + r.toNat) else s.getV r :=
  getElem_loadBlock s a n s.v r.toNat r.isLt

/-- Past a block that lies inside memory, `I` has not wrapped. -/
theorem advanceIndex_i_toNat {n : Nat} (h : s.i.toNat + n ≤ 4096) :
    (advanceIndex n s).i.toNat = s.i.toNat + n := by
  rw [advanceIndex, State.setI_i, BitVec.toNat_add, BitVec.toNat_ofNat]
  omega

/-! ### Frames (R57) -/

theorem Frame.setI (h : Frame f s t) (hf : f.index) (w : Word) : Frame f s (t.setI w) :=
  { h with index := fun hn => absurd hf hn }

theorem Frame.setV (h : Frame f s t) {w : Vector Byte 16}
    (hw : ∀ r, ¬ f.regs r → (t.setV w).getV r = s.getV r) : Frame f s (t.setV w) :=
  { h with regs := hw }

/-- A store writes the bytes of its range alone. -/
theorem Frame.writeBytes (h : Frame f s t) {a : Nat} {bs : List Byte}
    (hf : ∀ k, a ≤ k → k < a + bs.length → f.mem k) : Frame f s (t.writeBytes a bs) :=
  { h with
    mem := fun k hk => by
      have hout : k < a ∨ a + bs.length ≤ k := by
        by_contra hin
        exact hk (hf k (by omega) (by omega))
      exact (Memory.read_store_outside bs t.mem a k hout).trans (h.mem k hk) }

/-- A write of `I` followed by the driver's advance changes `I` alone. -/
theorem setI_setPc_frame (s : State) (w pc : Word) :
    Frame { index := True } s ((s.setI w).setPc pc) :=
  ((Frame.refl _ s).setI trivial w).setPc pc

end

end Sys2Proof.Machine

namespace Sys2Proof.Proofs

open Sys2Proof Sys2Proof.Machine

/-- Settles O43, by the range check; inside memory the three digits read back. -/
theorem bcdStoresDigits : Obligations.BcdStoresDigits := by
  intro x s
  rcases exec_ldB_cases x s with ⟨⟨-, hout⟩, he⟩ | ⟨hin, he⟩
  · rw [if_pos (by omega)]
    exact ⟨_, he, takesError_handleError (.memOutOfBounds s.i 3) s⟩
  · rw [if_neg (by omega)]
    have hread : ∀ j < 3, ((s.writeBytes s.i.toNat (bcdDigits (s.getV x))).readByte
        (s.i.toNat + j)).toNat = ((bcdDigits (s.getV x)).map BitVec.toNat).getD j 0 := by
      intro j hj
      rw [State.readByte_writeBytes_add (by simpa [bcdDigits] using hin) hj]
      exact (List.getD_map _ 0#8 BitVec.toNat).symm
    simp only [bcdDigits_map_toNat] at hread
    refine ⟨_, he, hread 0 (by decide), hread 1 (by decide), hread 2 (by decide), rfl,
      ((Frame.refl _ s).writeBytes ?range).setPc _⟩
    exact fun k hlo hhi => ⟨hlo, Nat.le_of_lt_succ hhi⟩

/-- Settles O44, by the range check; inside memory the stored registers read back. -/
theorem dumpStoresRegisters : Obligations.DumpStoresRegisters := by
  intro x s
  have hcount : blockCount x = x.toNat + 1 := rfl
  have hlen := length_dumpBytes s x
  rcases exec_ldMemVx_cases x s with ⟨⟨-, hout⟩, he⟩ | ⟨hin, he⟩
  · rw [if_pos (by omega)]
    exact ⟨_, he, takesError_handleError (.memOutOfBounds s.i (blockCount x)) s⟩
  · rw [if_neg (by omega)]
    have hle : s.i.toNat + blockCount x ≤ 4096 := by omega
    refine ⟨_, he, fun r hr => ?stored, advanceIndex_i_toNat hle, rfl,
      (((Frame.refl _ s).writeBytes ?range).setI trivial _).setPc _⟩
    case stored =>
      exact (State.readByte_writeBytes_add (by omega) (by omega)).trans (getD_dumpBytes s x r hr)
    case range => exact fun k hlo hhi => ⟨hlo, by omega⟩

/-- Settles O45, by the range check; inside memory the registers up to `V[x]` are the loaded ones. -/
theorem loadReadsRegisters : Obligations.LoadReadsRegisters := by
  intro x s
  have hcount : blockCount x = x.toNat + 1 := rfl
  rcases exec_ldVxMem_cases x s with ⟨⟨-, hout⟩, he⟩ | ⟨hin, he⟩
  · rw [if_pos (by omega)]
    exact ⟨_, he, takesError_handleError (.memOutOfBounds s.i (blockCount x)) s⟩
  · rw [if_neg (by omega)]
    have hload := State.getV_setV_loadBlock s s.i.toNat (blockCount x)
    have hle : s.i.toNat + blockCount x ≤ 4096 := by omega
    refine ⟨_, he, fun r hr => (hload r).trans (if_pos (by omega)), advanceIndex_i_toNat hle, rfl,
      (((Frame.refl _ s).setV fun r hr => ?_).setI trivial _).setPc _⟩
    exact (hload r).trans (if_neg fun hlt => hr (Nat.le_of_lt_succ hlt))

/-- Settles O46, from O44 and O45: the load reads the bytes the dump wrote, at the same addresses. -/
theorem loadUndoesDump : Obligations.LoadUndoesDump := by
  intro x s t u hin hdump hmem hi
  have hstored := dumpStoresRegisters x s
  rw [if_neg (by omega)] at hstored
  obtain ⟨t', hdump', hread, hti, -, -⟩ := hstored
  obtain rfl := Host.Outcome.next.inj (hdump'.symm.trans hdump)
  have hloaded := loadReadsRegisters x u
  rw [hi, if_neg (by omega)] at hloaded
  obtain ⟨w, hload, hregs, hwi, -, -⟩ := hloaded
  refine ⟨w, hload, fun r hr => ?_, BitVec.eq_of_toNat_eq (hwi.trans hti.symm)⟩
  rw [hregs r hr, State.readByte, hmem]
  exact hread r hr

/-- Settles O41: both write `I` alone, and the sum of words is the sum mod 65536. -/
theorem indexLoadAndAdd : Obligations.IndexLoadAndAdd := by
  intro nnn x s
  refine ⟨⟨_, exec_ldI nnn s, zext16_toNat (by decide) nnn, rfl, setI_setPc_frame ..⟩,
    ⟨_, exec_addI x s, ?_, rfl, setI_setPc_frame ..⟩⟩
  rw [State.setPc_i, State.setI_i, BitVec.toNat_add, zext16_toNat (by decide)]

/-- Settles O42, by whether the policy gives the value an address. -/
theorem glyphAddresses : Obligations.GlyphAddresses := by
  intro x s
  have hraises := glyphAddress_eq_none_iff s.params.glyphPolicy (s.getV x)
  rcases exec_ldF_cases x s with ⟨a, ha, he⟩ | ⟨hnone, he⟩
  · rw [if_neg (by simp [← hraises, ha])]
    exact ⟨_, he, glyphAddress_toNat ha, rfl, setI_setPc_frame ..⟩
  · rw [if_pos (hraises.1 hnone)]
    exact ⟨_, he, takesError_handleError (.glyphOutOfRange (s.getV x)) s⟩

end Sys2Proof.Proofs
end

section
/-!
SUPPORT. Errors, the keypad inputs and the display query (60_exceptions.md rules R221 to R226, R238 and R240):
where taking an error leaves `run` and `PC` under each policy, the calls and returns the stack refuses, the
answer of the decoder that is no instruction, and the display query as one vector of pixels.
-/

namespace Sys2Proof

/-- The decoder's unsupported answer carries the word it was given (R74, R86). -/
theorem eq_of_decode_eq_unsupported {w u : Word} (h : decode w = .unsupported u) : u = w := by
  have hans : AnswersFor w (.unsupported u) := h ▸ decode_answersFor w
  cases hans with
  | unsupported => rfl

end Sys2Proof

namespace Sys2Proof.Machine

/-! ### Taking an error under each policy (R224, R225) -/

section
variable {e : Error} {s t : State}

theorem TakesError.run_and_pc_of_halts (h : TakesError e s t)
    (hhalts : s.params.errorPolicy = .halt ∨ e = .stackOverflow ∨ e = .stackUnderflow) :
    t.run = .halted e ∧ t.pc = s.pc := by
  obtain ⟨-, hpolicy, -⟩ := h
  rwa [if_pos hhalts] at hpolicy

theorem Frame.setLastError {f : Footprint} (h : Frame f s t) (hf : f.lastError) (w : Option Error) :
    Frame f s (t.setLastError w) :=
  { h with lastError := fun hn => absurd hf hn }

/-! ### The calls and returns the stack refuses (R221, R222) -/

theorem exec_call_of_full (nnn : Addr) (h : s.sp.toNat = 16) :
    exec (.call nnn) s = .next (handleError .stackOverflow s) := by
  rcases exec_call_cases nnn s with ⟨hroom, _⟩ | ⟨_, he⟩ | ⟨hillegal, _⟩
  · omega
  · exact he
  · omega

theorem exec_ret_of_empty (h : s.sp.toNat = 0) :
    exec .ret s = .next (handleError .stackUnderflow s) := by
  rcases exec_ret_cases s with ⟨hlive, _, _⟩ | ⟨_, he⟩ | ⟨hillegal, _⟩
  · omega
  · exact he
  · omega

end

/-! ### The keypad inputs (R238) -/

theorem setKey_keyDown_getElem (k : Key) (down : Bool) (s : State) (j : Fin 16) :
    (setKey k down s).keyDown[j] = if j.val = k.toNat then down else s.keyDown[j] := by
  simp [setKey, Vector.getElem_set, eq_comm]

/-! ### The display query (R240) -/

/-- The query lists the rows one after another, each as its 64 pixels. -/
theorem displayQuery_eq_toList_flatten (s : State) : displayQuery s = s.display.flatten.toList := by
  simp [displayQuery, List.flatMap_def, Vector.flatten, Function.comp_def, Vector.toList_toArray]

theorem displayQuery_length (s : State) : (displayQuery s).length = 2048 := by
  rw [displayQuery_eq_toList_flatten, Vector.length_toList]

/-- Row `r` starts at `r * 64`, so quotient and remainder by 64 give back row and column (R31). -/
theorem displayQuery_getD (s : State) (r : Fin 32) (c : Fin 64) :
    (displayQuery s).getD (r.val * 64 + c.val) false = s.display.pixel r c := by
  have hlt : r.val * 64 + c.val < 32 * 64 := by omega
  have hrow : (r.val * 64 + c.val) / 64 = r.val := by omega
  have hcol : (r.val * 64 + c.val) % 64 = c.val := by omega
  rw [displayQuery_eq_toList_flatten, List.getD_eq_getElem _ _ (by simpa using hlt),
    Vector.getElem_toList, Vector.getElem_flatten hlt]
  simp only [hrow, hcol]
  rfl

end Sys2Proof.Machine

namespace Sys2Proof.Proofs

open Sys2Proof Sys2Proof.Machine

/-- Settles O18: of the effects an instruction can have, only taking an error writes `run` or `last_error`. -/
theorem errorsArePrecise : Obligations.ErrorsArePrecise := by
  intro i s t hexec
  by_cases hsame : t.run = s.run ∧ t.lastError = s.lastError
  · exact .inl hsame
  · exact .inr ((effect_of_exec hexec).error_writers (not_and_or.1 hsame)).1

/-- Settles O53: the query is the rows of the display in order, 64 pixels each. -/
theorem displayQueryIsRowMajor : Obligations.DisplayQueryIsRowMajor :=
  fun s => ⟨displayQuery_length s, displayQuery_getD s⟩

/-- Settles O15: inside memory the fetch answers the word of the two bytes at `PC`, and the driver takes the
error its decoding raises. -/
theorem unsupportedWordRaises : Obligations.UnsupportedWordRaises := by
  intro s w hrun hwait hpc hd
  refine ⟨eq_of_decode_eq_unsupported hd, _, ?_, takesError_handleError (.unsupported w) (beginCycle s)⟩
  rw [step_of_fetch hrun hwait (fetchWord_of_inside hpc), opcodeOfBytes, hd]
  rfl

/-- Settles O16: taking the error halts with `PC` kept, and a halted machine has no step. -/
theorem haltPolicyHalts : Obligations.HaltPolicyHalts := by
  intro e s hhalts
  have htakes := takesError_handleError e s
  obtain ⟨hrun, hpc⟩ := htakes.run_and_pc_of_halts hhalts
  obtain ⟨hlast, -, hframe⟩ := htakes
  exact ⟨_, raiseError_eq e s, hlast, hrun, hpc, hframe, step_of_halted hrun⟩

/-- Settles O17: the driver does not halt on the error, so it advances past the instruction. -/
theorem skipPolicySkips : Obligations.SkipPolicySkips := by
  intro e s hskip hover hunder
  have hgoes : haltsOn s.params.errorPolicy e = false := by
    rw [← Bool.not_eq_true, haltsOn_iff]
    simp [hskip, hover, hunder]
  rw [raiseError_eq, handleError_of_skips hgoes]
  exact ⟨_, rfl, rfl, rfl, rfl, ((Frame.refl _ s).setLastError trivial _).setPc _⟩

/-- Settles O23: the stack refuses a call when full and a return when empty, and its errors halt whatever
the policy. -/
theorem stackErrorsAreFatal : Obligations.StackErrorsAreFatal := by
  intro nnn s
  have hover := takesError_handleError .stackOverflow s
  have hunder := takesError_handleError .stackUnderflow s
  refine ⟨fun hroom => ?_, fun hfull => ?_, fun hempty => ?_⟩
  · exact ⟨_, exec_call_of_room nnn hroom, push_sp_toNat s.pc hroom, rfl⟩
  · exact ⟨_, exec_call_of_full nnn hfull, hover, hover.run_and_pc_of_halts (.inr (.inl rfl))⟩
  · exact ⟨_, exec_ret_of_empty hempty, hunder, hunder.run_and_pc_of_halts (.inr (.inr rfl))⟩

/-- Settles O51: a key's state is one entry of the vector, and each operation writes its one field. -/
theorem inputPortsWriteTheKeypad : Obligations.InputPortsWriteTheKeypad :=
  fun k down s => ⟨setKey_keyDown_getElem k down s, rfl, rfl, rfl⟩

end Sys2Proof.Proofs
end

section
/-!
SUPPORT. What construction puts into memory (70_reset_and_hazards.md rules R250 and R251) and what the ROM
load port can answer (R252, 60_exceptions.md rule R230).
-/

namespace Sys2Proof.Machine

/-! ### Construction -/

/-- The decided fontset has 80 bytes, so above it the construction contents are zero (R37, R250). -/
theorem Memory.unlisted_of_ge {a : Nat} (h : 80 ≤ a) : Memory.unlisted a = 0 :=
  List.getD_eq_default fontsetBytes 0 h

/-- The fontset reads back where it is installed; above it nothing is stored, and nothing is there. -/
theorem State.construct_readByte (p : Params) (policy : ResetRegPolicy) (font : Fontset)
    (draw : ResetDraws) (a : Nat) :
    (State.construct p policy font draw).readByte a = font.toList.getD a 0 := by
  have hlen : font.toList.length = 80 := font.length_toList
  by_cases ha : a < 80
  · exact (Memory.read_store font.toList [] 0 a (by rw [hlen]; decide)).trans (if_pos (by omega))
  · calc Memory.read (Memory.store [] 0 font.toList) a
        = Memory.unlisted a := Memory.read_store_outside font.toList [] 0 a (.inr (by omega))
      _ = 0 := Memory.unlisted_of_ge (by omega)
      _ = font.toList.getD a 0 := (List.getD_eq_default _ _ (by omega)).symm

/-- Under the decided parameters and the zero policy a construction differs from reset in memory alone. -/
theorem State.construct_decided (font : Fontset) (draw : ResetDraws) :
    State.construct decidedParams .zero font draw =
      State.reset.setMem (State.construct decidedParams .zero font draw).mem := rfl

/-! ### The ROM load port -/

section
variable {rom : List Byte} {s : State}

theorem loadRom_of_cycled (rom : List Byte) (h : s.cycled = true) :
    loadRom rom s = .refused .romLoadAfterFirstCycle := if_pos h

theorem loadRom_of_too_large (h : ¬ s.cycled = true) (hlen : rom.length > 3584) :
    loadRom rom s = .fault (.romTooLarge rom.length) := (if_neg h).trans (if_pos hlen)

theorem loadRom_of_fits (h : ¬ s.cycled = true) (hlen : ¬ rom.length > 3584) :
    loadRom rom s = .next (s.writeBytes 0x200 rom) := (if_neg h).trans (if_neg hlen)

end

end Sys2Proof.Machine

namespace Sys2Proof.Proofs

open Sys2Proof Sys2Proof.Machine

/-- Settles O49: the decided construction lists a canonical memory that reads like the empty one of reset,
and canonical memories that read alike are equal. -/
theorem constructionInstallsTheFontset : Obligations.ConstructionInstallsTheFontset := by
  refine ⟨State.construct_readByte, fun draw => ?_⟩
  have hmem : (State.construct decidedParams .zero decidedFontset draw).mem = State.reset.mem :=
    canonicalMemoriesAgree _ _ (State.construct_mem_wf ..) State.reset_mem_wf
      (State.construct_readByte decidedParams .zero decidedFontset draw)
  rw [State.construct_decided, hmem]
  rfl

/-- Settles O50, along the port's own branches: a ROM that fits ends inside memory, so its bytes read back,
and a store writes its range alone. -/
theorem romLoads : Obligations.RomLoads := by
  intro rom s
  split_ifs with hcycled hlarge
  · exact loadRom_of_cycled rom hcycled
  · exact loadRom_of_too_large hcycled hlarge
  · have hfits : 0x200 + rom.length ≤ 4096 := by omega
    exact ⟨_, loadRom_of_fits hcycled hlarge, fun j hj => State.readByte_writeBytes_add hfits hj, rfl,
      (Frame.refl _ s).writeBytes fun k hlo hhi => ⟨hlo, hhi⟩⟩

end Sys2Proof.Proofs
end
